-- ==== Sys2Proof/Word.lean ====
section
/-! DEFINITION. The word types of the block: bytes of the message buffer, 32-bit registers, and the
narrower fields of registers, records and wire headers (10_state.md R41, 30_encoding.md R125). -/

namespace Sys2Proof

/-- One byte of the message buffer, or one micro-op (R39, R135). -/
abbrev Byte := BitVec 8

/-- One host-visible register, or a wire header word (R41, R111). -/
abbrev Word := BitVec 32

/-- A 16-bit wire field or register field (R54, R125). -/
abbrev Half := BitVec 16

/-- A 4-bit field: a tcode, a record kind, an OP, a micro-op argument (R114, R130, R135, R140). -/
abbrev Nibble := BitVec 4

/-- The low bit of a word, as a register whose one field is bit [0] reads. -/
def bit0 (b : Bool) : Word := (BitVec.ofBool b).setWidth 32

end Sys2Proof
end

