-- ==== Sys2Proof/Syntax.lean ====
section
/-! DEFINITION. The instructions: one constructor per row of spec/opcode_table.json, in its order, and
the encoded words of the three instruction spaces (30_encoding.md). -/

namespace Sys2Proof

/-- The operands of a wire header word beside its tcode (30_encoding.md R111). -/
structure Header where
  /-- destination_id bit 15: the boot-id flag -/
  boot : BitVec 1
  /-- destination_id bits 14:0: a destination id, or a boot id when the flag is set -/
  id : BitVec 15
  /-- the transaction label -/
  label : BitVec 6
  /-- byte 2 bits [1:0], reserved -/
  rsvd : BitVec 2
  /-- byte 3 bits [3:0], the priority -/
  prio : BitVec 4
deriving DecidableEq, Repr

/-- The 22 rows: 4 host commands (R130), 9 micro-ops (R135), 9 wire variants (R115). -/
inductive Instr where
  | matchSig
  | msglen
  | decode
  | decodeS
  | endProg
  | hdr
  | u16 (kind : Nibble)
  | u32 (kind : Nibble)
  | rcode
  | skip (n : Nibble)
  | doff
  | dlen
  | block
  | wqreq (h : Header)
  | wbreq (h : Header)
  | wresp (h : Header)
  | rsvd3 (h : Header)
  | rqreq (h : Header)
  | rbreq (h : Header)
  | rqresp (h : Header)
  | rbresp (h : Header)
  | rsvd8to15 (h : Header) (low : BitVec 3)
deriving DecidableEq, Repr

/-- An encoded instruction in the space it stands in. The spaces are told apart by where a word stands
(a `CMD` write, the ROM, a message's first four bytes), never by its bits. -/
inductive Code where
  /-- a word written to `CMD` (R130) -/
  | cmd (w : Word)
  /-- a word of the micro-program ROM (R135) -/
  | uop (b : Byte)
  /-- the header word of a message, byte 0 in its top byte (R111) -/
  | wire (h : Word)
deriving DecidableEq, Repr

/-- Why an encoded word is no instruction. -/
inductive Reject where
  /-- `CMD.OP` 0x0 or 0x4 to 0xF (R131): the write raises `E_BADCMD` -/
  | reservedCommand (op : Nibble)
  /-- OPC 0x9 to 0xF, or an ARG other than 0 on a micro-op that takes none (R137) -/
  | reservedMicroOp (b : Byte)
deriving DecidableEq, Repr

/-- What a row of spec/opcode_table.json fixes of its words: their width, mask and match. -/
structure Row where
  bits : Nat
  mask : Nat
  pattern : Nat
deriving DecidableEq, Repr

end Sys2Proof
end

