-- ==== Sys2Proof/WellFormed.lean ====
section
/-! DEFINITION. Which terms of `Instr` are instructions the spec admits. Only U16 and U32 have operand
values it reserves: the ROM uses U16 with kind SOURCE_ID (5) and U32 with kind QUADLET_DATA (7), and
every other kind is reserved (30_encoding.md R136, R137). SKIP takes every count 0 to 15 (R135), and no
wire header is ill-formed (R142, R244). -/

namespace Sys2Proof

/-- The check of R136 and R137, constructor by constructor. -/
def Instr.wellFormed : Instr → Bool
  | .matchSig => true
  | .msglen => true
  | .decode => true
  | .decodeS => true
  | .endProg => true
  | .hdr => true
  | .u16 kind => kind == 5#4
  | .u32 kind => kind == 7#4
  | .rcode => true
  | .skip _ => true
  | .doff => true
  | .dlen => true
  | .block => true
  | .wqreq _ => true
  | .wbreq _ => true
  | .wresp _ => true
  | .rsvd3 _ => true
  | .rqreq _ => true
  | .rbreq _ => true
  | .rqresp _ => true
  | .rbresp _ => true
  | .rsvd8to15 _ _ => true

end Sys2Proof
end

