-- ==== Sys2Proof/Decode.lean ====
section
/-! DEFINITION. The decoder of each instruction space, total on any word and rejecting by name, and the
encoder, both written from 30_encoding.md. -/

namespace Sys2Proof

/-- The operands of a header word (R111, bit positions in H). -/
def Header.ofWord (h : Word) : Header where
  boot := h.extractLsb' 31 1
  id := h.extractLsb' 16 15
  label := h.extractLsb' 10 6
  rsvd := h.extractLsb' 8 2
  prio := h.extractLsb' 0 4

/-- The header word of these operands and this tcode (R111, R127). -/
def Header.toWord (h : Header) (tcode : Nibble) : Word :=
  h.boot ++ h.id ++ h.label ++ h.rsvd ++ tcode ++ h.prio

/-- A `CMD` word: OP in bits [3:0], DETAIL in bit [4], bits [31:5] ignored (R130, R131, R132). -/
def decodeCommand (w : Word) : Except Reject Instr :=
  match (w.extractLsb' 0 4).toNat with
  | 1 => .ok .matchSig
  | 2 => .ok .msglen
  | 3 => .ok (if w.getLsbD 4 then .decode else .decodeS)
  | _ => .error (.reservedCommand (w.extractLsb' 0 4))

/-- A micro-op that takes no argument: any other ARG than 0 is reserved (R137). -/
def decodeNoArg (b : Byte) (i : Instr) : Except Reject Instr :=
  if b.extractLsb' 0 4 = 0#4 then .ok i else .error (.reservedMicroOp b)

/-- A micro-op: OPC in bits [7:4], ARG in bits [3:0] (R135, R137). The kinds of U16 and U32 that R137
reserves are read here and refused by `Instr.wellFormed`. -/
def decodeMicroOp (b : Byte) : Except Reject Instr :=
  match (b.extractLsb' 4 4).toNat with
  | 0 => decodeNoArg b .endProg
  | 1 => decodeNoArg b .hdr
  | 2 => .ok (.u16 (b.extractLsb' 0 4))
  | 3 => .ok (.u32 (b.extractLsb' 0 4))
  | 4 => decodeNoArg b .rcode
  | 5 => .ok (.skip (b.extractLsb' 0 4))
  | 6 => decodeNoArg b .doff
  | 7 => decodeNoArg b .dlen
  | 8 => decodeNoArg b .block
  | _ => .error (.reservedMicroOp b)

/-- A header word: the tcode, bits [7:4], selects exactly one variant; none is rejected (R115, R244). -/
def decodeWire (h : Word) : Instr :=
  match (h.extractLsb' 4 4).toNat with
  | 0 => .wqreq (.ofWord h)
  | 1 => .wbreq (.ofWord h)
  | 2 => .wresp (.ofWord h)
  | 3 => .rsvd3 (.ofWord h)
  | 4 => .rqreq (.ofWord h)
  | 5 => .rbreq (.ofWord h)
  | 6 => .rqresp (.ofWord h)
  | 7 => .rbresp (.ofWord h)
  | _ => .rsvd8to15 (.ofWord h) (h.extractLsb' 4 3)

/-- The decoder: each space has its own (R130, R135, R111). -/
def decode : Code → Except Reject Instr
  | .cmd w => decodeCommand w
  | .uop b => decodeMicroOp b
  | .wire h => .ok (decodeWire h)

/-- The encoder: the canonical command words (R130), the micro-op words (R135), the header words (R111). -/
def encode : Instr → Code
  | .matchSig => .cmd 0x00000001#32
  | .msglen => .cmd 0x00000002#32
  | .decode => .cmd 0x00000013#32
  | .decodeS => .cmd 0x00000003#32
  | .endProg => .uop 0x00#8
  | .hdr => .uop 0x10#8
  | .u16 kind => .uop (2#4 ++ kind)
  | .u32 kind => .uop (3#4 ++ kind)
  | .rcode => .uop 0x40#8
  | .skip n => .uop (5#4 ++ n)
  | .doff => .uop 0x60#8
  | .dlen => .uop 0x70#8
  | .block => .uop 0x80#8
  | .wqreq h => .wire (h.toWord 0#4)
  | .wbreq h => .wire (h.toWord 1#4)
  | .wresp h => .wire (h.toWord 2#4)
  | .rsvd3 h => .wire (h.toWord 3#4)
  | .rqreq h => .wire (h.toWord 4#4)
  | .rbreq h => .wire (h.toWord 5#4)
  | .rqresp h => .wire (h.toWord 6#4)
  | .rbresp h => .wire (h.toWord 7#4)
  | .rsvd8to15 h low => .wire (h.toWord (1#1 ++ low))

/-- The word of a code, whatever its space. -/
def Code.bits : Code → Nat
  | .cmd w => w.toNat
  | .uop b => b.toNat
  | .wire h => h.toNat

/-- What spec/opcode_table.json fixes of an instruction's words. -/
def Instr.row : Instr → Row
  | .matchSig => ⟨32, 0x0000000F, 0x00000001⟩
  | .msglen => ⟨32, 0x0000000F, 0x00000002⟩
  | .decode => ⟨32, 0x0000001F, 0x00000013⟩
  | .decodeS => ⟨32, 0x0000001F, 0x00000003⟩
  | .endProg => ⟨8, 0xFF, 0x00⟩
  | .hdr => ⟨8, 0xFF, 0x10⟩
  | .u16 _ => ⟨8, 0xF0, 0x20⟩
  | .u32 _ => ⟨8, 0xF0, 0x30⟩
  | .rcode => ⟨8, 0xFF, 0x40⟩
  | .skip _ => ⟨8, 0xF0, 0x50⟩
  | .doff => ⟨8, 0xFF, 0x60⟩
  | .dlen => ⟨8, 0xFF, 0x70⟩
  | .block => ⟨8, 0xFF, 0x80⟩
  | .wqreq _ => ⟨32, 0x000000F0, 0x00000000⟩
  | .wbreq _ => ⟨32, 0x000000F0, 0x00000010⟩
  | .wresp _ => ⟨32, 0x000000F0, 0x00000020⟩
  | .rsvd3 _ => ⟨32, 0x000000F0, 0x00000030⟩
  | .rqreq _ => ⟨32, 0x000000F0, 0x00000040⟩
  | .rbreq _ => ⟨32, 0x000000F0, 0x00000050⟩
  | .rqresp _ => ⟨32, 0x000000F0, 0x00000060⟩
  | .rbresp _ => ⟨32, 0x000000F0, 0x00000070⟩
  | .rsvd8to15 _ _ => ⟨32, 0x00000080, 0x00000080⟩

/-- Which space a bare table word is read in. The table gives CMD and WIRE rows the same 32 bits, and the
machine tells them apart by where the word stands; a bare 32-bit word is read as a `CMD` word when its
OP is one of the three commands and as a header word otherwise. DESIGN CHOICE (log 11): it is used by
the table query and by `State.withFetchWord` only, never by a step from a loaded state. -/
def tableCode (nbits w : Nat) : Option Code :=
  if nbits = 8 then some (.uop (BitVec.ofNat 8 w))
  else if nbits = 32 then
    match w % 16 with
    | 1 | 2 | 3 => some (.cmd (BitVec.ofNat 32 w))
    | _ => some (.wire (BitVec.ofNat 32 w))
  else none

/-- The instruction the decoder reads from a table word. -/
def decodeTableWord (nbits w : Nat) : Option Instr :=
  match tableCode nbits w with
  | none => none
  | some c =>
    match decode c with
    | .ok i => some i
    | .error _ => none

/-- A 16-bit wire integer, big-endian (R87). -/
def bigEndian16 (v : Half) : List Byte :=
  [v.extractLsb' 8 8, v.extractLsb' 0 8]

/-- A 32-bit wire integer, big-endian (R84, R87). -/
def bigEndian32 (v : Word) : List Byte :=
  [v.extractLsb' 24 8, v.extractLsb' 16 8, v.extractLsb' 8 8, v.extractLsb' 0 8]

/-- The 16 bytes of a Write Quadlet Request (R127): header, source id, the conventional FF FF, address,
quadlet. -/
def writeQuadletRequest (boot : BitVec 1) (id : BitVec 15) (label : BitVec 6) (source : Half)
    (address quadlet : Word) : List Byte :=
  bigEndian32 (Header.toWord ⟨boot, id, label, 0#2, 0#4⟩ 0#4) ++ bigEndian16 source
    ++ [0xFF#8, 0xFF#8] ++ bigEndian32 address ++ bigEndian32 quadlet

end Sys2Proof
end

