-- ==== Sys2Proof/Config.lean ====
section
/-! DEFINITION. What the spec leaves to the implementation: the bounds and the recommended value of
`BUF_CAP` (00_scope.md R6), and the free values behind every result the spec calls unspecified. -/

namespace Sys2Proof.Config

/-- The least `BUF_CAP` R6 allows. -/
def minBufCap : Nat := 16

/-- The greatest `BUF_CAP` R6 allows. -/
def maxBufCap : Nat := 2 ^ 24

/-- The `BUF_CAP` R6 recommends: it holds the longest message. DESIGN CHOICE (log 9): the reset state
takes it; no statement over all states rests on it. -/
def recommendedBufCap : Nat := 65552

/-- What MSGLEN leaves in `MSGLEN_RES` when it raises `E_ORC_SHORT`: unspecified (R48, R295). DESIGN
CHOICE (log 4), safe: nothing can be proved of it. -/
opaque freeMsglen : Nat → Word

/-- What a host read of a result register returns while the engine is busy: unspecified (R341). DESIGN
CHOICE (log 5), safe: nothing can be proved of it. -/
opaque freeRead : Nat → Word

end Sys2Proof.Config
end

