-- ==== Sys2Proof/Machine/Rom.lean ====
section
/-! DEFINITION. The micro-program ROM: one program per PROG value (43_message_decoder.md R250). -/

namespace Sys2Proof.Machine

/-- The table of R250, PROG 0 to 7, each program ending in END. -/
def microRom : List (List Byte) :=
  [ [0x25#8, 0x60#8, 0x37#8, 0x00#8],
    [0x25#8, 0x60#8, 0x70#8, 0x52#8, 0x80#8, 0x00#8],
    [0x25#8, 0x40#8, 0x00#8],
    [0x00#8],
    [0x25#8, 0x60#8, 0x00#8],
    [0x25#8, 0x60#8, 0x70#8, 0x00#8],
    [0x25#8, 0x40#8, 0x55#8, 0x37#8, 0x00#8],
    [0x25#8, 0x40#8, 0x55#8, 0x70#8, 0x52#8, 0x80#8, 0x00#8] ]

end Sys2Proof.Machine
end

