-- ==== Sys2Proof/Machine/State.lean ====
section
/-! DEFINITION. The state of one engine (10_state.md), the inputs it is driven by (20_memory.md R81,
70_reset_and_hazards.md R330), why a step can stop, and the state after reset (R61). -/

namespace Sys2Proof.Machine

/-- Why the machine stops. Message content never stops it (60_exceptions.md R290). -/
inductive Fault where
  /-- A read of a byte of BUF that no host write has written since reset: by a host read, by the engine,
  or by a view read (R85, R333). Raised by `State.memRead1` and every read built on it. Safe: the spec
  asks for it. -/
  | unwrittenByte (off : Nat)
  /-- The ROM holds no micro-op at this place. R38 says UPC never leaves its program; raised by
  `fetchMicroOp` in states no run reaches. Safe (log 19). -/
  | noMicroOp (prog upc : BitVec 3)
  /-- Phase EXEC with LAST_OP neither MATCH nor MSGLEN. R36 says no command gets there; raised by
  `execPhase` in states no run reaches. Safe (log 19). -/
  | noCommand
deriving DecidableEq, Repr

/-- Why the machine has no meaning for what it fetched. -/
inductive Refusal where
  /-- An instruction of the table without a meaning: raised by `exec` only. Safe. -/
  | notModelled (mnemonic : String)
  /-- A reserved micro-op in the ROM: R137 says a model must refuse it. Raised by `bodyPhase`; the ROM of
  R250 holds none. Safe. -/
  | reservedMicroOp (word : Byte)
deriving DecidableEq, Repr

/-- What a step answers. -/
abbrev Res (σ : Type) := Host.Outcome σ Fault Refusal

/-- The sequencer's phase (R36). -/
inductive Phase where
  | idle
  | exec
  | gate
  | hdr
  | body
  | finish
deriving DecidableEq, Repr

/-- The two host-addressable spaces (R80). -/
inductive Space where
  | reg
  | buf
deriving DecidableEq, Repr

/-- The size of a host access: 1 or 4 bytes (R81). -/
inductive Size where
  | byte
  | word
deriving DecidableEq, Repr

/-- The four words of a field slot (R57). -/
inductive SlotWord where
  | kind
  | start
  | len
  | value
deriving DecidableEq, Repr

/-- The registers of the map of R41. -/
inductive Reg where
  | cmd
  | status
  | ctrl
  | bufLen
  | orcOff
  | matchRes
  | msglenRes
  | summary
  | sumDestOff
  | fieldCount
  | cursor
  | dlenRd
  | blkStart
  | blkInfo
  | blkCounts
  | viewSel
  | viewData
  | id
  | slot (i : Fin 8) (w : SlotWord)
deriving DecidableEq, Repr

/-- One host access (R81). -/
inductive Access where
  | read (space : Space) (off : Nat) (size : Size)
  | write (space : Space) (off : Nat) (size : Size) (data : Word)
deriving DecidableEq, Repr

/-- What a host access returns (R81). -/
inductive Response where
  | ok
  | data (v : Word)
  | busError
deriving DecidableEq, Repr

/-- One input of the machine, in the one order R95 gives host accesses and engine steps (log 1). -/
inductive Event where
  /-- the host performs an access (R81) -/
  | access (a : Access)
  /-- the engine is given its turn (R30, R350) -/
  | engine
  /-- the platform asserts reset (R330) -/
  | reset
deriving DecidableEq, Repr

/-- The error causes (R291). -/
inductive ErrorKind where
  | badCmd
  | busy
  | orcShort
  | bufLen
  | view
deriving DecidableEq, Repr

/-- The fields of STATUS (R43). -/
structure Status where
  busy : Bool
  done : Bool
  err : Bool
  lastOp : Nibble
  errCode : Nibble
deriving DecidableEq, Repr

/-- The fields of SUMMARY (R49). -/
structure Summary where
  valid : Bool
  hasType : Bool
  tcodeRsvd : Bool
  hasDest : Bool
  tcode : Nibble
deriving DecidableEq, Repr

/-- The data block descriptor: BLK_START, BLK_INFO, BLK_COUNTS (R54). -/
structure Block where
  start : Word
  valid : Bool
  len : Half
  words : Half
  bytes : Half
deriving DecidableEq, Repr

/-- One field record slot (R57, R141). -/
structure FieldRec where
  kind : Nibble
  start : Word
  len : Word
  value : Word
deriving DecidableEq, Repr

/-- Bytes of BUF that have a value, by offset, offsets strictly rising; an unlisted byte has none
(R85, R333). -/
abbrev Memory := List Host.Cell

/-- A cleared STATUS (R61). -/
def Status.zero : Status := ⟨false, false, false, 0#4, 0#4⟩

/-- A cleared SUMMARY (R61, R241). -/
def Summary.zero : Summary := ⟨false, false, false, false, 0#4⟩

/-- A cleared block descriptor (R61, R241). -/
def Block.zero : Block := ⟨0#32, false, 0#16, 0#16, 0#16⟩

/-- A cleared field slot (R57, R61). -/
def FieldRec.zero : FieldRec := ⟨0#4, 0#32, 0#32, 0#32⟩

/-- One engine, and what drives it. -/
structure State where
  /-- PHASE (R36) -/
  phase : Phase
  /-- UPC, with PROG the program counter (R37) -/
  upc : BitVec 3
  /-- PROG, the program selector (R37) -/
  prog : BitVec 3
  /-- TCODE_R (R34) -/
  tcodeR : Nibble
  /-- DETAIL_R (R35) -/
  detailR : Bool
  /-- CUR, the cursor (R32) -/
  cur : Word
  /-- DLEN (R33) -/
  dlen : Half
  /-- STATUS (R43) -/
  status : Status
  /-- CTRL.IRQ_EN (R44) -/
  irqEn : Bool
  /-- BUF_LEN (R45) -/
  bufLen : Word
  /-- ORC_OFF (R46) -/
  orcOff : Word
  /-- MATCH_RES.MATCH (R47) -/
  matchRes : Bool
  /-- MSGLEN_RES (R48) -/
  msglenRes : Word
  /-- SUMMARY (R49) -/
  summary : Summary
  /-- SUM_DEST_OFF (R50) -/
  sumDestOff : Word
  /-- FIELD_COUNT (R51) -/
  fieldCount : Nibble
  /-- FIELD slots 0 to 7 (R57) -/
  fields : Vector FieldRec 8
  /-- CURSOR (R52) -/
  cursor : Word
  /-- DLEN_RD (R53) -/
  dlenRd : Half
  /-- BLK_START, BLK_INFO, BLK_COUNTS (R54) -/
  block : Block
  /-- VIEW_SEL (R55) -/
  viewSel : Word
  /-- VIEW_DATA (R55) -/
  viewData : Word
  /-- BUF (R39) -/
  buf : Memory
  /-- BUF_CAP, a parameter of the machine; no step changes it (R6, log 9) -/
  bufCap : Nat
  /-- the micro-program ROM; no step changes it (R99, R250, log 10) -/
  rom : List (List Byte)
  /-- the MODEL's own: the inputs still to come (log 1) -/
  agenda : List Event
  /-- the MODEL's own: what the last host access returned (log 3) -/
  response : Option Response
  /-- the MODEL's own: how many free values have been drawn (log 5) -/
  draws : Nat
deriving DecidableEq, Repr

/-- The machine right after reset (R61, R330, R331): every register zero, the engine idle, no byte of BUF
holding a value. DESIGN CHOICE for the model's own fields and for `bufCap` (logs 2, 3, 5, 9). -/
def State.reset : State where
  phase := .idle
  upc := 0#3
  prog := 0#3
  tcodeR := 0#4
  detailR := false
  cur := 0#32
  dlen := 0#16
  status := .zero
  irqEn := false
  bufLen := 0#32
  orcOff := 0#32
  matchRes := false
  msglenRes := 0#32
  summary := .zero
  sumDestOff := 0#32
  fieldCount := 0#4
  fields := Vector.replicate 8 FieldRec.zero
  cursor := 0#32
  dlenRd := 0#16
  block := .zero
  viewSel := 0#32
  viewData := 0#32
  buf := []
  bufCap := Config.recommendedBufCap
  rom := microRom
  agenda := []
  response := none
  draws := 0

end Sys2Proof.Machine
end

