-- ==== Sys2Proof/Machine/Operands.lean ====
section
/-! DEFINITION. Operand assembly: how field values are cut from bytes of the message (30_encoding.md
R111 to R125), the length guard (42_field_cursor.md R201), the tcode's tables (R115, R183, R244), the
record kinds (R140) and the constants the rules name. -/

namespace Sys2Proof.Machine

/-- The header minimum of DECODE: 12 bytes (00_scope.md R6, R242). -/
def headerMinimum : Nat := 12

/-- The constant of register ID, the ASCII bytes "OMMP" (R2, R56). -/
def idWord : Word := 0x4F4D4D50#32

/-- The guard: a field of `w` bytes at `cur` lies inside a message of `len` bytes, in exact arithmetic
(R9, R201). -/
def fits (len cur : Word) (w : Nat) : Bool :=
  cur.toNat + w ≤ len.toNat

/-- destination_id bit 15: the boot-id flag (R112). -/
def bootFlag (d : Half) : Bool := d.getLsbD 15

/-- destination_id bits 14:0 (R112). -/
def destId (d : Half) : BitVec 15 := d.extractLsb' 0 15

/-- The transaction label, byte 2 bits [7:2] (R113). -/
def labelOf (b : Byte) : BitVec 6 := b.extractLsb' 2 6

/-- The tcode, byte 3 bits [7:4] (R114). -/
def tcodeOf (b : Byte) : Nibble := b.extractLsb' 4 4

/-- The rcode, bits [7:4] of its byte (R119). -/
def rcodeOf (b : Byte) : Nibble := b.extractLsb' 4 4

/-- The demultiplexer: which program a tcode selects (R244). -/
def progSel (t : Nibble) : BitVec 3 :=
  match t.toNat with
  | 0 => 0#3
  | 1 => 1#3
  | 2 => 2#3
  | 4 => 4#3
  | 5 => 5#3
  | 6 => 6#3
  | 7 => 7#3
  | _ => 3#3

/-- The length oracle's base length of a tcode (R183). -/
def oracleBase (t : Nibble) : Nat :=
  match t.toNat with
  | 0 | 1 | 5 | 6 | 7 => 16
  | 2 | 4 => 12
  | _ => 8

/-- The tcodes with a data block (R184, R274). -/
def bearsBlock (t : Nibble) : Bool := t == 1#4 || t == 7#4

/-- The tcode's name; the reserved tcodes have none (R115, R264). -/
def tcodeName (t : Nibble) : Option String :=
  match t.toNat with
  | 0 => some "Write Quadlet Request"
  | 1 => some "Write Block Request"
  | 2 => some "Write Response"
  | 4 => some "Read Quadlet Request"
  | 5 => some "Read Block Request"
  | 6 => some "Read Quadlet Response"
  | 7 => some "Read Block Response"
  | _ => none

/-! The KIND codes of field records (R140). -/

def kindDestId : Nibble := 1#4
def kindBootId : Nibble := 2#4
def kindTlabel : Nibble := 3#4
def kindTcode : Nibble := 4#4
def kindSourceId : Nibble := 5#4
def kindDestOffset : Nibble := 6#4
def kindQuadletData : Nibble := 7#4
def kindRcode : Nibble := 8#4
def kindDataLength : Nibble := 9#4
def kindDataBlock : Nibble := 10#4

/-- The kind of the destination record: the flag selects the interpretation (R203, R140). -/
def destKind (d : Half) : Nibble :=
  if bootFlag d then kindBootId else kindDestId

/-- The descriptor of a block of `n` bytes at `start` (R210). -/
def Block.describe (start : Word) (n : Half) : Block where
  start := start
  valid := true
  len := n
  words := BitVec.ofNat 16 (n.toNat / 4)
  bytes := n

/-- The length MSGLEN computes from a tcode, the bytes available at the offset, and the data_length
field (R183, R184, R185). -/
def messageLength (t : Nibble) (avail : Nat) (dataLength : Half) : Nat :=
  if bearsBlock t && decide (14 ≤ avail) then oracleBase t + dataLength.toNat else oracleBase t

/-- The code an error records in `STATUS.ERRCODE` (R291). -/
def ErrorKind.code : ErrorKind → Nibble
  | .badCmd => 1#4
  | .busy => 2#4
  | .orcShort => 3#4
  | .bufLen => 4#4
  | .view => 5#4

end Sys2Proof.Machine
end

