-- ==== Sys2Proof/Machine/Flags.lean ====
section
/-! DEFINITION. Every flag the spec computes (10_state.md R59): MATCH (40_signature.md R161), the SUMMARY
bits (43_message_decoder.md R243), the index check of the views (R272), the interrupt line
(60_exceptions.md R304); and the words in which flags are read (R43, R49, R54). -/

namespace Sys2Proof.Machine

/-- The signature predicate over the first four bytes (R161): destination id 0, reserved label bits 0, a
valid tcode, priority 0. -/
def signature (d : Half) (b2 b3 : Byte) : Bool :=
  d == 0#16 && b2 &&& 0x03#8 == 0#8
    && decide (b3 &&& 0xF0#8 ≤ 0x70#8) && b3 &&& 0xF0#8 != 0x30#8
    && b3 &&& 0x0F#8 == 0#8

/-- TCODE_RSVD: the tcode is 3 or 8 to 15 (R49, R243). -/
def tcodeReserved (t : Nibble) : Bool := t == 3#4 || decide (8#4 ≤ t)

/-- HAS_DEST: the tcode's layout carries a destination_offset (R49, R243, R262). -/
def bearsDest (t : Nibble) : Bool := t == 0#4 || t == 1#4 || t == 4#4 || t == 5#4

/-- SUMMARY as the HDR phase writes it for this tcode; SUM_VALID is as the GATE phase left it (R243). -/
def Summary.ofTcode (old : Summary) (t : Nibble) : Summary where
  valid := old.valid
  hasType := true
  tcodeRsvd := tcodeReserved t
  hasDest := old.hasDest || bearsDest t
  tcode := t

/-- STATUS as it reads (R43). -/
def Status.toWord (s : Status) : Word :=
  (0#20 ++ s.errCode ++ s.lastOp ++ 0#1
    ++ BitVec.ofBool s.err ++ BitVec.ofBool s.done ++ BitVec.ofBool s.busy : BitVec 32)

/-- SUMMARY as it reads (R49). -/
def Summary.toWord (s : Summary) : Word :=
  (0#24 ++ s.tcode ++ BitVec.ofBool s.hasDest ++ BitVec.ofBool s.tcodeRsvd
    ++ BitVec.ofBool s.hasType ++ BitVec.ofBool s.valid : BitVec 32)

/-- BLK_INFO as it reads (R54). -/
def Block.infoWord (b : Block) : Word :=
  (BitVec.ofBool b.valid ++ 0#15 ++ b.len : BitVec 32)

/-- BLK_COUNTS as it reads (R54). -/
def Block.countsWord (b : Block) : Word :=
  (b.words ++ b.bytes : BitVec 32)

/-- VIEW_SEL.MODE: 0 the word view, 1 the byte view (R55). -/
def viewMode (v : Word) : Bool := v.getLsbD 31

/-- VIEW_SEL.INDEX (R55). -/
def viewIndex (v : Word) : Half := v.extractLsb' 0 16

/-- The index check of a VIEW_SEL write: a valid block, and an element of the chosen view (R272). -/
def Block.hasElement (b : Block) (v : Word) : Bool :=
  b.valid && (if viewMode v then decide (viewIndex v < b.bytes) else decide (viewIndex v < b.words))

/-- The interrupt output (R304). -/
def State.irq (s : State) : Bool := s.irqEn && (s.status.done || s.status.err)

end Sys2Proof.Machine
end

