-- ==== Sys2Proof/Machine/Ops.lean ====
section
/-! DEFINITION. The named operations the meanings share: BUF and MemRead (20_memory.md), recording and
clearing an error (60_exceptions.md R293, R301), accepting and finishing a command (R294, R303), Emit and
the cursor (42_field_cursor.md R200, R202), DECODE's Init (43_message_decoder.md R241). -/

namespace Sys2Proof.Machine

/-! ### The message buffer -/

/-- The byte at an offset, if a host write since reset gave it a value (R85). -/
def Memory.read? : Memory → Nat → Option Byte
  | [], _ => none
  | (a', b) :: m, a => if a = a' then some b else if a < a' then none else Memory.read? m a

/-- Store one byte, keeping the offsets strictly rising (R84). -/
def Memory.write : Memory → Nat → Byte → Memory
  | [], a, b => [(a, b)]
  | (a', b') :: m, a, b =>
    if a < a' then (a, b) :: (a', b') :: m
    else if a = a' then (a, b) :: m
    else (a', b') :: Memory.write m a b

/-- Store bytes from an offset upward, the first at the lowest (R8). -/
def Memory.writeBytes : Memory → Nat → List Byte → Memory
  | m, _, [] => m
  | m, a, b :: bs => Memory.writeBytes (Memory.write m a b) (a + 1) bs

/-- The canonical form: offsets strictly rising from `lo`, below `hi`. -/
def Memory.inOrder : Memory → Nat → Nat → Bool
  | [], _, _ => true
  | (a, _) :: m, lo, hi => decide (lo ≤ a) && decide (a < hi) && Memory.inOrder m (a + 1) hi

/-- The canonical form of a buffer of `cap` bytes: no offset twice, none at or past `cap` (R39, R83). -/
def Memory.wf (m : Memory) (cap : Nat) : Bool := Memory.inOrder m 0 cap

/-- `MemRead(a, 1)` (R10). Every byte a pseudocode read names is read, so a byte without a value is a
fault (R85, R333, log 8). -/
def State.memRead1 (s : State) (a : Nat) : Except Fault Byte :=
  match s.buf.read? a with
  | some b => .ok b
  | none => .error (.unwrittenByte a)

/-- `MemRead(a, 2)`, big-endian (R10, R87). -/
def State.memRead2 (s : State) (a : Nat) : Except Fault Half :=
  match s.memRead1 a, s.memRead1 (a + 1) with
  | .ok b0, .ok b1 => .ok (b0 ++ b1)
  | .error f, _ => .error f
  | .ok _, .error f => .error f

/-- `MemRead(a, 4)`, big-endian (R10, R87). -/
def State.memRead4 (s : State) (a : Nat) : Except Fault Word :=
  match s.memRead2 a, s.memRead2 (a + 2) with
  | .ok h0, .ok h1 => .ok (h0 ++ h1)
  | .error f, _ => .error f
  | .ok _, .error f => .error f

/-- Go on with a value that was read, or stop with the fault. -/
def withRead {α : Type} (r : Except Fault α) (k : α → Res State) : Res State :=
  match r with
  | .ok v => k v
  | .error f => .fault f

/-- Go on from a next state; a fault or a refusal stands. -/
def andThen (r : Res State) (k : State → Res State) : Res State :=
  match r with
  | .next s => k s
  | .fault f => .fault f
  | .refused f => .refused f

/-! ### Errors, acceptance and completion -/

/-- Raise an error: the first code is kept, ERR is set; nothing else changes (R293, R300). -/
def State.raise (s : State) (e : ErrorKind) : State :=
  { s with status := { s.status with
      err := true
      errCode := if s.status.err then s.status.errCode else e.code } }

/-- The W1C write of STATUS: bit [1] clears DONE, bit [2] clears ERR and ERRCODE (R43, R301). -/
def State.clearStatus (s : State) (v : Word) : State :=
  { s with status := { s.status with
      done := s.status.done && !v.getLsbD 1
      err := s.status.err && !v.getLsbD 2
      errCode := if v.getLsbD 2 then 0#4 else s.status.errCode } }

/-- An accepted command: BUSY set, DONE cleared, LAST_OP recorded, the sequencer started (R294). -/
def State.accept (s : State) (op : Nibble) (p : Phase) : State :=
  { s with
    phase := p
    status := { s.status with busy := true, done := false, lastOp := op } }

/-- The common FINISH of every command (R303). -/
def State.complete (s : State) : State :=
  { s with
    phase := .idle
    status := { s.status with busy := false, done := true } }

/-- DECODE's Init: nothing an earlier command left survives (R241). VIEW_SEL, CURSOR and DLEN_RD are not
among what it clears. -/
def State.initDecode (s : State) : State :=
  { s with
    cur := 0#32, dlen := 0#16, tcodeR := 0#4, upc := 0#3, prog := 0#3
    fieldCount := 0#4, fields := Vector.replicate 8 FieldRec.zero
    summary := .zero, sumDestOff := 0#32
    block := .zero, viewData := 0#32 }

/-- An accepted BUF or BUF_LEN write invalidates the data block; its other fields keep their values
(R54, R343). -/
def State.invalidateBlock (s : State) : State :=
  { s with block := { s.block with valid := false } }

/-- What the access returns to the host (R81). -/
def State.respond (s : State) (r : Response) : State :=
  { s with response := some r }

/-! ### The field cursor -/

/-- Emit: one record into the next slot, or nothing without detail (R200). -/
def State.emit (s : State) (kind : Nibble) (start len value : Word) : State :=
  { s with
    fields :=
      if s.detailR then s.fields.setIfInBounds s.fieldCount.toNat ⟨kind, start, len, value⟩
      else s.fields
    fieldCount := if s.detailR then s.fieldCount + 1#4 else s.fieldCount }

/-- Advance the cursor by a field's wire width (R202). -/
def State.advance (s : State) (n : Nat) : State :=
  { s with cur := s.cur + BitVec.ofNat 32 n }

/-- The dispatch that ends the HDR phase for a message of tcode `t`: the summary's type, and the variant's
program (R243, R244). -/
def State.dispatch (s : State) (t : Nibble) : State :=
  { s with
    summary := s.summary.ofTcode t
    prog := progSel t
    upc := 0#3
    phase := .body }

/-- The dispatch of a variant with a destination_offset: SUM_DEST_OFF is the address at bytes 8 to 11
(R243, R262). -/
def State.dispatchDest (s : State) (t : Nibble) : Res State :=
  withRead (s.memRead4 8) fun a => .next { s.dispatch t with sumDestOff := a }

/-! ### Fetching -/

/-- The micro-op at ROM[PROG][UPC] (R37, R245). -/
def fetchMicroOp (s : State) : Except Fault Byte :=
  match s.rom[s.prog.toNat]? with
  | none => .error (.noMicroOp s.prog s.upc)
  | some p =>
    match p[s.upc.toNat]? with
    | none => .error (.noMicroOp s.prog s.upc)
    | some b => .ok b

/-- The header word H = MemRead(0, 4) of the message (R111). -/
def fetchHeader (s : State) : Except Fault Word := s.memRead4 0

/-! ### Placing an instruction where the next step fetches it (log 2) -/

/-- The host's next access is the `CMD` write of this word. -/
def State.placeCommand (s : State) (w : Word) : State :=
  { s with agenda := .access (.write .reg 0 .word w) :: s.agenda }

/-- The engine's next turn is the HDR phase of a DECODE, on the 16-byte message of this header word and
zeros. -/
def State.placeHeader (s : State) (h : Word) : State :=
  { s with
    phase := .hdr
    status := { s.status with busy := true, lastOp := 3#4 }
    bufLen := 16#32
    buf := Memory.writeBytes s.buf 0 (bigEndian32 h ++ List.replicate 12 0#8)
    agenda := .engine :: s.agenda }

/-- The engine's next turn is the BODY phase of a DECODE, at this word in the first cell of the ROM. -/
def State.placeMicroOp (s : State) (b : Byte) : State :=
  { s with
    phase := .body
    status := { s.status with busy := true, lastOp := 3#4 }
    prog := 0#3
    upc := 0#3
    rom := (b :: (s.rom.headD []).tail) :: s.rom.tail
    agenda := .engine :: s.agenda }

/-- The instruction of this code, placed. HDR is executed in the HDR phase and is not stored in the ROM
(R136), so it is placed as that phase on a message of zeros. -/
def State.place (s : State) : Code → State
  | .cmd w => s.placeCommand w
  | .wire h => s.placeHeader h
  | .uop b => if b = 0x10#8 then s.placeHeader 0#32 else s.placeMicroOp b

end Sys2Proof.Machine
end

