-- ==== Sys2Proof/Machine/Commands.lean ====
section
/-! DEFINITION. The four host commands (30_encoding.md R130): what the `CMD` write of each does (R294),
and the EXEC phase of MATCH (40_signature.md) and of MSGLEN (41_length_oracle.md). The engine's later
phases are in Sequencer.lean. -/

namespace Sys2Proof.Machine

/-- A `CMD` write while BUSY is dropped and raises E_BUSY; otherwise the command starts (R294). -/
def State.command (s : State) (start : State → State) : Res State :=
  if s.status.busy then .next (s.raise .busy) else .next (start s)

/-- MATCH (R160, R294): the engine goes to EXEC. -/
def execMatch (s : State) : Res State :=
  s.command fun s => s.accept 1#4 .exec

/-- MSGLEN (R180, R294): the engine goes to EXEC. -/
def execMsglen (s : State) : Res State :=
  s.command fun s => s.accept 2#4 .exec

/-- DECODE, with field records (R240): DETAIL_R set, fresh state, the engine goes to GATE. -/
def execDecode (s : State) : Res State :=
  s.command fun s => ({ s.accept 3#4 .gate with detailR := true }).initDecode

/-- DECODE.S, summary only (R240, R263): DETAIL_R clear, fresh state, the engine goes to GATE. -/
def execDecodeS (s : State) : Res State :=
  s.command fun s => ({ s.accept 3#4 .gate with detailR := false }).initDecode

/-- The EXEC phase of MATCH (R160, R161, R162): a buffer shorter than 4 bytes gives 0 and is not read. -/
def matchPhase (s : State) : Res State :=
  if fits s.bufLen 0#32 4 then
    withRead (s.memRead2 0) fun d =>
    withRead (s.memRead1 2) fun b2 =>
    withRead (s.memRead1 3) fun b3 =>
      .next { s with matchRes := signature d b2 b3, phase := .finish }
  else .next { s with matchRes := false, phase := .finish }

/-- MSGLEN's result in its register (R184). -/
def State.setMsglen (s : State) (n : Nat) : State :=
  { s with msglenRes := BitVec.ofNat 32 n, phase := .finish }

/-- The EXEC phase of MSGLEN (R180 to R186). With fewer than 4 bytes at ORC_OFF it raises E_ORC_SHORT and
completes with MSGLEN_RES a free value (R295, log 4). -/
def msglenPhase (s : State) : Res State :=
  let o := s.orcOff.toNat
  if o ≤ s.bufLen.toNat ∧ 4 ≤ s.bufLen.toNat - o then
    let avail := s.bufLen.toNat - o
    withRead (s.memRead1 (o + 3)) fun b =>
      let t := tcodeOf b
      if bearsBlock t && decide (14 ≤ avail) then
        withRead (s.memRead2 (o + 12)) fun n => .next (s.setMsglen (messageLength t avail n))
      else .next (s.setMsglen (messageLength t avail 0#16))
  else
    .next (({ s with
      msglenRes := Config.freeMsglen s.draws
      draws := s.draws + 1
      phase := .finish }).raise .orcShort)

end Sys2Proof.Machine
end

