-- ==== Sys2Proof/Machine/MicroOps.lean ====
section
/-! DEFINITION. The nine micro-ops, the FieldCursor primitives (42_field_cursor.md R203 to R211). None
raises an error (R214). UPC moves in the BODY phase, around them (43_message_decoder.md R245). -/

namespace Sys2Proof.Machine

/-- END (R211). -/
def execEnd (s : State) : Res State := .next { s with phase := .finish }

/-- HDR, the common header (R203). It has no guard: its phase is entered with 12 bytes at least. -/
def execHdr (s : State) : Res State :=
  withRead (s.memRead2 0) fun d =>
  withRead (s.memRead1 2) fun b2 =>
  withRead (s.memRead1 3) fun b3 =>
    let s := s.emit (destKind d) 0#32 2#32 ((destId d).setWidth 32)
    let s := s.emit kindTlabel 2#32 1#32 ((labelOf b2).setWidth 32)
    let s := s.emit kindTcode 3#32 1#32 ((tcodeOf b3).setWidth 32)
    .next { s with tcodeR := tcodeOf b3, cur := 4#32 }

/-- U16 kind, `read_u16` (R204). -/
def execU16 (kind : Nibble) (s : State) : Res State :=
  if fits s.bufLen s.cur 2 then
    withRead (s.memRead2 s.cur.toNat) fun v =>
      .next ((s.emit kind s.cur 2#32 (v.setWidth 32)).advance 2)
  else .next (s.advance 2)

/-- U32 kind, `read_u32` (R205). -/
def execU32 (kind : Nibble) (s : State) : Res State :=
  if fits s.bufLen s.cur 4 then
    withRead (s.memRead4 s.cur.toNat) fun v =>
      .next ((s.emit kind s.cur 4#32 v).advance 4)
  else .next (s.advance 4)

/-- RCODE, `read_rcode` (R206). -/
def execRcode (s : State) : Res State :=
  if fits s.bufLen s.cur 1 then
    withRead (s.memRead1 s.cur.toNat) fun b =>
      .next ((s.emit kindRcode s.cur 1#32 ((rcodeOf b).setWidth 32)).advance 1)
  else .next (s.advance 1)

/-- SKIP n (R207). -/
def execSkip (n : Nibble) (s : State) : Res State := .next (s.advance n.toNat)

/-- DOFF, `read_destination_offset` (R208): the two reserved bytes are passed over unread. -/
def execDoff (s : State) : Res State :=
  let s := s.advance 2
  if fits s.bufLen s.cur 4 then
    withRead (s.memRead4 s.cur.toNat) fun v =>
      .next ((s.emit kindDestOffset s.cur 4#32 v).advance 4)
  else .next (s.advance 4)

/-- DLEN, `read_data_length` (R209): 0 when the field does not fit. -/
def execDlen (s : State) : Res State :=
  if fits s.bufLen s.cur 2 then
    withRead (s.memRead2 s.cur.toNat) fun v =>
      .next ({ s.emit kindDataLength s.cur 2#32 (v.setWidth 32) with dlen := v }.advance 2)
  else .next ({ s with dlen := 0#16 }.advance 2)

/-- BLOCK, `read_data_block` (R210): all or nothing; it reads no byte and leaves the cursor. -/
def execBlock (s : State) : Res State :=
  if fits s.bufLen s.cur s.dlen.toNat then
    .next { s.emit kindDataBlock s.cur (s.dlen.setWidth 32) (s.dlen.setWidth 32) with
      block := if s.detailR then .describe s.cur s.dlen else s.block }
  else .next s

end Sys2Proof.Machine
end

