-- ==== Sys2Proof/Machine/Variants.lean ====
section
/-! DEFINITION. The nine wire variants (43_message_decoder.md R251 to R258): what the tcode of a message's
header word selects at the end of the HDR phase (R243, R244). The header's operands are reported by the
HDR micro-op, which runs before in the same phase; the variant's own fields come from its program
(R250). -/

namespace Sys2Proof.Machine

/-- Write Quadlet Request, tcode 0 (R251). -/
def execWqreq (_h : Header) (s : State) : Res State := s.dispatchDest 0#4

/-- Write Block Request, tcode 1 (R252). -/
def execWbreq (_h : Header) (s : State) : Res State := s.dispatchDest 1#4

/-- Write Response, tcode 2 (R253). -/
def execWresp (_h : Header) (s : State) : Res State := .next (s.dispatch 2#4)

/-- Reserved tcode 3: the unknown sink (R258). -/
def execRsvd3 (_h : Header) (s : State) : Res State := .next (s.dispatch 3#4)

/-- Read Quadlet Request, tcode 4 (R254). -/
def execRqreq (_h : Header) (s : State) : Res State := s.dispatchDest 4#4

/-- Read Block Request, tcode 5 (R255). -/
def execRbreq (_h : Header) (s : State) : Res State := s.dispatchDest 5#4

/-- Read Quadlet Response, tcode 6 (R256). -/
def execRqresp (_h : Header) (s : State) : Res State := .next (s.dispatch 6#4)

/-- Read Block Response, tcode 7 (R257). -/
def execRbresp (_h : Header) (s : State) : Res State := .next (s.dispatch 7#4)

/-- Reserved tcodes 8 to 15: the unknown sink (R258). -/
def execRsvd8to15 (_h : Header) (low : BitVec 3) (s : State) : Res State :=
  .next (s.dispatch (1#1 ++ low))

end Sys2Proof.Machine
end

