-- ==== Sys2Proof/Machine/Dispatch.lean ====
section
/-! DEFINITION. The meaning of every instruction: one arm per constructor. -/

namespace Sys2Proof.Machine

def exec (i : Instr) (s : State) : Host.Outcome State Fault Refusal :=
  match i with
  | .matchSig => Sys2Proof.Machine.execMatch s
  | .msglen => Sys2Proof.Machine.execMsglen s
  | .decode => Sys2Proof.Machine.execDecode s
  | .decodeS => Sys2Proof.Machine.execDecodeS s
  | .endProg => Sys2Proof.Machine.execEnd s
  | .hdr => Sys2Proof.Machine.execHdr s
  | .u16 kind => Sys2Proof.Machine.execU16 kind s
  | .u32 kind => Sys2Proof.Machine.execU32 kind s
  | .rcode => Sys2Proof.Machine.execRcode s
  | .skip n => Sys2Proof.Machine.execSkip n s
  | .doff => Sys2Proof.Machine.execDoff s
  | .dlen => Sys2Proof.Machine.execDlen s
  | .block => Sys2Proof.Machine.execBlock s
  | .wqreq h => Sys2Proof.Machine.execWqreq h s
  | .wbreq h => Sys2Proof.Machine.execWbreq h s
  | .wresp h => Sys2Proof.Machine.execWresp h s
  | .rsvd3 h => Sys2Proof.Machine.execRsvd3 h s
  | .rqreq h => Sys2Proof.Machine.execRqreq h s
  | .rbreq h => Sys2Proof.Machine.execRbreq h s
  | .rqresp h => Sys2Proof.Machine.execRqresp h s
  | .rbresp h => Sys2Proof.Machine.execRbresp h s
  | .rsvd8to15 h low => Sys2Proof.Machine.execRsvd8to15 h low s

end Sys2Proof.Machine
end

