-- ==== Sys2Proof/Machine/Sequencer.lean ====
section
/-! DEFINITION. The engine's step, phase by phase (10_state.md R36; 43_message_decoder.md R242 to R246;
60_exceptions.md R303). One engine step is one phase action; in BODY it is one micro-op (R245). -/

namespace Sys2Proof.Machine

/-- EXEC: the command LAST_OP names, which is the one running (R36, R160, R180, log 12). -/
def execPhase (s : State) : Res State :=
  match s.status.lastOp.toNat with
  | 1 => matchPhase s
  | 2 => msglenPhase s
  | _ => .fault .noCommand

/-- GATE: the header minimum (R242). -/
def gatePhase (s : State) : Res State :=
  .next { s with
    summary := { s.summary with valid := true }
    phase := if s.bufLen.toNat < headerMinimum then .finish else .hdr }

/-- HDR: the HDR micro-op, then the dispatch of the variant the header word's tcode selects (R243, R244,
log 13). -/
def hdrPhase (s : State) : Res State :=
  withRead (fetchHeader s) fun h =>
    andThen (exec .hdr s) fun s => exec (decodeWire h) s

/-- After a micro-op UPC moves on, but for END (R38, R245). -/
def nextUpc (i : Instr) (s : State) : State :=
  if i = .endProg then s else { s with upc := s.upc + 1#3 }

/-- BODY: one micro-op of the ROM; a reserved one is refused (R137, R245). DESIGN CHOICE (log 24): a ROM
word 0x10, HDR, which the spec keeps to the HDR phase (R136, R203) and does not reserve (R137), runs as
the other micro-ops do, unguarded; the ROM of R250 holds none. -/
def bodyPhase (s : State) : Res State :=
  withRead (fetchMicroOp s) fun b =>
    match decode (.uop b) with
    | .error _ => .refused (.reservedMicroOp b)
    | .ok i =>
      if i.wellFormed then andThen (exec i s) fun s => .next (nextUpc i s)
      else .refused (.reservedMicroOp b)

/-- FINISH: DECODE copies its working registers first (R246); every command completes (R303). -/
def finishPhase (s : State) : Res State :=
  let s := if s.status.lastOp = 3#4 then { s with cursor := s.cur, dlenRd := s.dlen } else s
  .next s.complete

/-- The action of the phase the sequencer is in (R36). -/
def phaseStep (s : State) : Res State :=
  match s.phase with
  | .idle => .next s
  | .exec => execPhase s
  | .gate => gatePhase s
  | .hdr => hdrPhase s
  | .body => bodyPhase s
  | .finish => finishPhase s

/-- The engine's turn: it steps only while BUSY; an idle engine keeps all its state (R30, R313). -/
def engineStep (s : State) : Res State :=
  if s.status.busy then phaseStep s else .next s

/-- `n` turns of the engine with no host access between them. -/
def engineRun : Nat → State → Res State
  | 0, s => .next s
  | n + 1, s => andThen (engineStep s) (engineRun n)

end Sys2Proof.Machine
end

