-- ==== Sys2Proof/Machine/HostBus.lean ====
section
/-! DEFINITION. The host bus (20_memory.md R80 to R91): the register map, admission, and what each host
access does and returns. Every access is one transition (R81). -/

namespace Sys2Proof.Machine

/-- The registers of R41 below the field slots, four bytes apart from offset 0x00. -/
def registerMap : List Reg :=
  [ .cmd, .status, .ctrl, .bufLen, .orcOff, .matchRes, .msglenRes, .summary, .sumDestOff,
    .fieldCount, .cursor, .dlenRd, .blkStart, .blkInfo, .blkCounts, .viewSel, .viewData, .id ]

/-- The register at a REG offset; none where nothing is mapped (R41, R58). -/
def regAt (off : Nat) : Option Reg :=
  if off % 4 ≠ 0 then none
  else if off < 0x80 then registerMap[off / 4]?
  else if off < 0x100 then
    some (.slot (Fin.ofNat 8 ((off - 0x80) / 16)) (slotWordAt (off % 16)))
  else none
where
  /-- The word of a slot at an offset inside it (R57). -/
  slotWordAt (k : Nat) : SlotWord :=
    match k with
    | 0 => .kind
    | 4 => .start
    | 8 => .len
    | _ => .value

/-- The offset of a register (R41, R57). -/
def Reg.offset : Reg → Nat
  | .cmd => 0x00
  | .status => 0x04
  | .ctrl => 0x08
  | .bufLen => 0x0C
  | .orcOff => 0x10
  | .matchRes => 0x14
  | .msglenRes => 0x18
  | .summary => 0x1C
  | .sumDestOff => 0x20
  | .fieldCount => 0x24
  | .cursor => 0x28
  | .dlenRd => 0x2C
  | .blkStart => 0x30
  | .blkInfo => 0x34
  | .blkCounts => 0x38
  | .viewSel => 0x3C
  | .viewData => 0x40
  | .id => 0x44
  | .slot i .kind => 0x80 + 16 * i.val
  | .slot i .start => 0x84 + 16 * i.val
  | .slot i .len => 0x88 + 16 * i.val
  | .slot i .value => 0x8C + 16 * i.val

/-- Admission of a BUF access (R83). -/
def bufAdmits (s : State) (off : Nat) : Size → Bool
  | .byte => decide (off < s.bufCap)
  | .word => decide (off % 4 = 0) && decide (off + 4 ≤ s.bufCap)

/-- What a register reads as (R42 to R57). -/
def State.regValue (s : State) : Reg → Word
  | .cmd => 0#32
  | .status => s.status.toWord
  | .ctrl => bit0 s.irqEn
  | .bufLen => s.bufLen
  | .orcOff => s.orcOff
  | .matchRes => bit0 s.matchRes
  | .msglenRes => s.msglenRes
  | .summary => s.summary.toWord
  | .sumDestOff => s.sumDestOff
  | .fieldCount => s.fieldCount.setWidth 32
  | .cursor => s.cursor
  | .dlenRd => s.dlenRd.setWidth 32
  | .blkStart => s.block.start
  | .blkInfo => s.block.infoWord
  | .blkCounts => s.block.countsWord
  | .viewSel => s.viewSel
  | .viewData => s.viewData
  | .id => idWord
  | .slot i .kind => s.fields[i].kind.setWidth 32
  | .slot i .start => s.fields[i].start
  | .slot i .len => s.fields[i].len
  | .slot i .value => s.fields[i].value

/-- The result registers: read while busy they return an unspecified value (R341). -/
def Reg.isResult : Reg → Bool
  | .matchRes | .msglenRes | .summary | .sumDestOff | .fieldCount | .cursor | .dlenRd => true
  | .blkStart | .blkInfo | .blkCounts | .viewData | .slot _ _ => true
  | .cmd | .status | .ctrl | .bufLen | .orcOff | .viewSel | .id => false

/-- A host read of REG (R82, R91, R341): no state changes but the model's own `response` and `draws`. -/
def readReg (s : State) (off : Nat) (size : Size) : Res State :=
  match size, regAt off with
  | .word, some r =>
    if s.status.busy && r.isResult then
      .next ({ s with draws := s.draws + 1 }.respond (.data (Config.freeRead s.draws)))
    else .next (s.respond (.data (s.regValue r)))
  | _, _ => .next (s.respond .busError)

/-- A host read of BUF, admitted while busy too (R83, R85). -/
def readBuf (s : State) (off : Nat) (size : Size) : Res State :=
  if bufAdmits s off size then
    match size with
    | .byte => withRead (s.memRead1 off) fun b => .next (s.respond (.data (b.setWidth 32)))
    | .word => withRead (s.memRead4 off) fun v => .next (s.respond (.data v))
  else .next (s.respond .busError)

/-- A write the busy rule drops while a command runs, or its own effect when idle (R294, R299). -/
def State.whenIdle (s : State) (effect : Res State) : Res State :=
  if s.status.busy then .next (s.raise .busy) else effect

/-- The `CMD` write: the decoded command, or E_BADCMD for a reserved OP (R294, R292). -/
def writeCmd (s : State) (v : Word) : Res State :=
  match decode (.cmd v) with
  | .ok i => exec i s
  | .error _ => s.whenIdle (.next (s.raise .badCmd))

/-- The BUF_LEN write: dropped with E_BUFLEN above BUF_CAP; accepted, it invalidates the block
(R45, R296). -/
def writeBufLen (s : State) (v : Word) : Res State :=
  s.whenIdle <|
    if s.bufCap < v.toNat then .next (s.raise .bufLen)
    else .next { s.invalidateBlock with bufLen := v }

/-- The VIEW_SEL write: it latches the selected element, or 0 with E_VIEW (R272, R297, log 6). -/
def writeViewSel (s : State) (v : Word) : Res State :=
  s.whenIdle <|
    let t := { s with viewSel := v &&& 0x8000FFFF#32 }
    let k := (viewIndex v).toNat
    if s.block.hasElement v then
      if viewMode v then
        withRead (s.memRead1 (s.block.start.toNat + k)) fun b => .next { t with viewData := b.setWidth 32 }
      else
        withRead (s.memRead4 (s.block.start.toNat + 4 * k)) fun w => .next { t with viewData := w }
    else .next ({ t with viewData := 0#32 }.raise .view)

/-- The effect of a write to a mapped register; a write to a read-only register is ignored (R41, R294). -/
def writeMapped (s : State) (v : Word) : Reg → Res State
  | .cmd => writeCmd s v
  | .status => .next (s.clearStatus v)
  | .ctrl => .next { s with irqEn := v.getLsbD 0 }
  | .bufLen => writeBufLen s v
  | .orcOff => s.whenIdle (.next { s with orcOff := v })
  | .viewSel => writeViewSel s v
  | .matchRes | .msglenRes | .summary | .sumDestOff | .fieldCount | .cursor | .dlenRd => .next s
  | .blkStart | .blkInfo | .blkCounts | .viewData | .id | .slot _ _ => .next s

/-- A host write of REG (R82). -/
def writeReg (s : State) (off : Nat) (size : Size) (v : Word) : Res State :=
  match size, regAt off with
  | .word, some r => andThen (writeMapped s v r) fun t => .next (t.respond .ok)
  | _, _ => .next (s.respond .busError)

/-- The bytes a BUF write stores (R84). -/
def storedBytes (v : Word) : Size → List Byte
  | .byte => [v.extractLsb' 0 8]
  | .word => bigEndian32 v

/-- A host write of BUF (R83, R84): dropped with E_BUSY while a command runs. -/
def writeBuf (s : State) (off : Nat) (size : Size) (v : Word) : Res State :=
  if bufAdmits s off size then
    andThen
      (s.whenIdle (.next { s.invalidateBlock with
        buf := Memory.writeBytes s.buf off (storedBytes v size) }))
      fun t => .next (t.respond .ok)
  else .next (s.respond .busError)

/-- One host access (R81). -/
def hostAccess (s : State) : Access → Res State
  | .read .reg off size => readReg s off size
  | .read .buf off size => readBuf s off size
  | .write .reg off size v => writeReg s off size v
  | .write .buf off size v => writeBuf s off size v

/-- Reset: every piece of state at its reset value; the parameter, the ROM, the inputs still to come and
the count of free values stay (R330, R333, log 21). -/
def State.afterReset (s : State) : State :=
  { State.reset with bufCap := s.bufCap, rom := s.rom, agenda := s.agenda, draws := s.draws }

/-- One input (R81, R95, R330). -/
def handle (s : State) : Event → Res State
  | .access a => hostAccess s a
  | .engine => engineStep s
  | .reset => .next s.afterReset

end Sys2Proof.Machine
end

