-- ==== Sys2Proof/Machine/Step.lean ====
section
/-! DEFINITION. One step of the machine: the next input in the one order of 20_memory.md R95, or, when
none is left, the engine's turn (70_reset_and_hazards.md R350); and how an instruction is placed where
the next step fetches it. -/

namespace Sys2Proof.Machine

/-- One step. -/
def step (s : State) : Host.Outcome State Fault Refusal :=
  match s.agenda with
  | [] => engineStep s
  | e :: rest => handle { s with agenda := rest } e

/-- `s` with a table word placed where the next step fetches it (log 2). -/
def State.withFetchWord (s : State) (nbits w : Nat) : State :=
  match tableCode nbits w with
  | none => s
  | some c => s.place c

end Sys2Proof.Machine
end

