-- ==== Sys2Proof/Machine/Engines.lean ====
section
/-! DEFINITION. `N_ENGINES` engines (00_scope.md R6, 60_exceptions.md R311): each with its own copy of all
state, sharing nothing, idle at reset, each driven by its own inputs. -/

namespace Sys2Proof.Machine

/-- The block's engines, by engine number. -/
structure Engines where
  engines : List State
deriving DecidableEq, Repr

/-- `n` engines right after reset. -/
def Engines.reset (n : Nat) : Engines := ⟨List.replicate n State.reset⟩

/-- Engine `e` takes one step; `none` where there is no such engine. -/
def Engines.stepAt (m : Engines) (e : Nat) : Option (Res Engines) :=
  match m.engines[e]? with
  | none => none
  | some s =>
    some (match step s with
      | .next t => .next ⟨m.engines.set e t⟩
      | .fault f => .fault f
      | .refused r => .refused r)

end Sys2Proof.Machine
end

