-- ==== Sys2Proof/Machine/HostProgram.lean ====
section
/-! DEFINITION. The host program syntax and the pseudo-instructions of 30_encoding.md R145 and R146, as
the inputs they stand for. -/

namespace Sys2Proof.Machine

/-- `WR <reg>, <value>` (R145). -/
def wr (r : Reg) (v : Word) : Event := .access (.write .reg r.offset .word v)

/-- `RD <reg>` (R145). -/
def rd (r : Reg) : Event := .access (.read .reg r.offset .word)

/-- `WRB <off>, <byte>` (R145). -/
def wrb (off : Nat) (b : Byte) : Event := .access (.write .buf off .byte (b.setWidth 32))

/-- `WRW <off>, <word>` (R145). -/
def wrw (off : Nat) (v : Word) : Event := .access (.write .buf off .word v)

/-- The `CMD` write of a command's canonical word (R130, R145). -/
def issue (i : Instr) : Event := wr .cmd (BitVec.ofNat 32 (encode i).bits)

/-- Bytes written one by one from an offset upward. -/
def wrbs (off : Nat) : List Byte → List Event
  | [] => []
  | b :: bs => wrb off b :: wrbs (off + 1) bs

/-- `APPEND k: b(m) ... b(k-1)`, the bytes starting at offset m (R146). -/
def appendMsg (m : Nat) (bs : List Byte) : List Event :=
  wrbs m bs ++ [wr .bufLen (BitVec.ofNat 32 (m + bs.length))]

/-- `LOADMSG b0 b1 ... b(k-1)` (R146). -/
def loadMsg (bs : List Byte) : List Event := appendMsg 0 bs

/-- `WAIT`: the engine has its turns, then STATUS is read with BUSY 0. Ten turns are enough for any
command (R284, R351), and a turn of an idle engine changes nothing (log 18). -/
def wait : List Event := List.replicate 10 .engine ++ [rd .status]

/-- `CLEAR` (R146). -/
def clear : Event := wr .status 0x00000006#32

/-- `VIEW.W i` (R146). -/
def viewW (i : Half) : List Event := [wr .viewSel (i.setWidth 32), rd .viewData]

/-- `VIEW.B j` (R146). -/
def viewB (j : Half) : List Event := [wr .viewSel (0x8000#16 ++ j : BitVec 32), rd .viewData]

end Sys2Proof.Machine
end

