-- ==== Sys2Proof/Safety.lean ====
section
/-! DEFINITION. What counts as a safe run, in the terms the claims use: the invariant of the machine, the
host's duty to write the bytes it declares, and the message as the wire layout gives it
(30_encoding.md R116), independent of the micro-programs that decode it. -/

namespace Sys2Proof.Machine

/-! ### The invariant -/

/-- The parameter is in its range and the ROM is the table of R250 (R6, R99). -/
abbrev State.ConfigInv (s : State) : Prop :=
  Config.minBufCap ≤ s.bufCap ∧ s.bufCap ≤ Config.maxBufCap ∧ s.rom = microRom

/-- BUF is in canonical form and inside its capacity, and so is BUF_LEN (R39, R45). -/
abbrev State.BufferInv (s : State) : Prop :=
  s.buf.wf s.bufCap = true ∧ s.bufLen.toNat ≤ s.bufCap

/-- BUSY exactly outside IDLE (R36); no DONE while busy (R294, R303); a code recorded exactly with ERR, and
only one of the five (R291, R293). -/
abbrev State.StatusInv (s : State) : Prop :=
  (s.phase = .idle ↔ s.status.busy = false)
    ∧ (s.status.busy = true → s.status.done = false)
    ∧ (s.status.err = false → s.status.errCode = 0#4)
    ∧ (s.status.err = true → 1 ≤ s.status.errCode.toNat ∧ s.status.errCode.toNat ≤ 5)
    ∧ s.status.lastOp.toNat ≤ 3

/-- CUR before each micro-op of each program, END among them (R116, R281). -/
def cursorTable : List (List Nat) :=
  [ [4, 6, 12, 16],
    [4, 6, 12, 14, 16, 16],
    [4, 6, 7],
    [4],
    [4, 6, 12],
    [4, 6, 12, 14],
    [4, 6, 7, 12, 16],
    [4, 6, 7, 12, 14, 16, 16] ]

/-- The most records before each micro-op of each program (R280). -/
def recordTable : List (List Nat) :=
  [ [3, 4, 5, 6],
    [3, 4, 5, 6, 6, 7],
    [3, 4, 5],
    [3],
    [3, 4, 5],
    [3, 4, 5, 6],
    [3, 4, 5, 5, 6],
    [3, 4, 5, 5, 6, 6, 7] ]

/-- What each phase promises: which command is running (R36), that GATE and HDR see a fresh DECODE
(R241), that HDR and BODY have the header minimum (R242), and that BODY stands at a place of the program
the tcode selects, with the cursor the layout gives that place (R38, R244, R281). -/
abbrev State.PhaseInv (s : State) : Prop :=
  (s.phase = .exec → s.status.lastOp = 1#4 ∨ s.status.lastOp = 2#4)
    ∧ (s.phase = .gate ∨ s.phase = .hdr →
        s.status.lastOp = 3#4 ∧ s.cur = 0#32 ∧ s.fieldCount = 0#4
          ∧ s.summary = { Summary.zero with valid := decide (s.phase = .hdr) }
          ∧ s.sumDestOff = 0#32)
    ∧ (s.phase = .hdr ∨ s.phase = .body → headerMinimum ≤ s.bufLen.toNat)
    ∧ (s.phase = .body →
        s.status.lastOp = 3#4
          ∧ s.summary.valid = true ∧ s.summary.hasType = true ∧ s.summary.tcode = s.tcodeR
          ∧ s.prog = progSel s.tcodeR
          ∧ (cursorTable[s.prog.toNat]?.bind fun p => p[s.upc.toNat]?) = some s.cur.toNat
          ∧ s.fieldCount.toNat
              ≤ ((recordTable[s.prog.toNat]?.bind fun p => p[s.upc.toNat]?).getD 0))
    ∧ (s.phase = .finish → 1 ≤ s.status.lastOp.toNat)

/-- At most 7 records and a cursor of at most 16 (R51, R88, R280); slots past FIELD_COUNT read 0 (R57);
used slots hold one of the ten kinds (R140). -/
abbrev State.RecordsInv (s : State) : Prop :=
  s.fieldCount.toNat ≤ 7 ∧ s.cur.toNat ≤ 16
    ∧ ∀ i : Fin 8,
        (s.fieldCount.toNat ≤ i.val → s.fields[i] = FieldRec.zero)
          ∧ (i.val < s.fieldCount.toNat →
              1 ≤ s.fields[i].kind.toNat ∧ s.fields[i].kind.toNat ≤ 10)

/-- The summary's bits agree with its tcode (R49, R261, R262). -/
abbrev State.SummaryInv (s : State) : Prop :=
  (s.summary.hasType = false →
      s.summary.tcodeRsvd = false ∧ s.summary.hasDest = false ∧ s.summary.tcode = 0#4)
    ∧ (s.summary.hasType = true →
        s.summary.valid = true
          ∧ s.summary.tcodeRsvd = tcodeReserved s.summary.tcode
          ∧ s.summary.hasDest = bearsDest s.summary.tcode)
    ∧ (s.summary.hasDest = false → s.sumDestOff = 0#32)

/-- The block's counts agree with its length, and a valid block lies inside the message (R54, R272). -/
abbrev State.BlockInv (s : State) : Prop :=
  s.block.words.toNat = s.block.len.toNat / 4 ∧ s.block.bytes = s.block.len
    ∧ (s.block.valid = true →
        s.block.start = 16#32 ∧ 16 + s.block.len.toNat ≤ s.bufLen.toNat)

/-- The reserved bits of VIEW_SEL read 0 (R55). -/
abbrev State.ViewInv (s : State) : Prop := s.viewSel &&& 0x7FFF0000#32 = 0#32

/-- The invariant of one engine. -/
abbrev State.Inv (s : State) : Prop :=
  s.ConfigInv ∧ s.BufferInv ∧ s.StatusInv ∧ s.PhaseInv ∧ s.RecordsInv ∧ s.SummaryInv
    ∧ s.BlockInv ∧ s.ViewInv

/-- The host wrote every byte of the message it declared (R333, R334): the duty whose breach is the one
way a command can stop. -/
abbrev State.Loaded (s : State) : Prop :=
  ∀ a, a < s.bufLen.toNat → (s.buf.read? a).isSome = true

/-- BUF holds this message, and BUF_LEN is its length (R39). -/
abbrev State.Holds (s : State) (m : List Byte) : Prop :=
  s.bufLen.toNat = m.length ∧ ∀ k, k < m.length → s.buf.read? k = m[k]?

/-- The micro-op words R137 reserves: codes 9 to 15, an argument on a micro-op that takes none, U16 and U32
of another kind than R136's. -/
abbrev reservedMicroOp (b : Byte) : Prop :=
  9 ≤ b.toNat / 16
    ∨ ((b.toNat / 16 = 0 ∨ b.toNat / 16 = 1 ∨ b.toNat / 16 = 4 ∨ 6 ≤ b.toNat / 16)
        ∧ b.toNat % 16 ≠ 0)
    ∨ (b.toNat / 16 = 2 ∧ b.toNat % 16 ≠ 5)
    ∨ (b.toNat / 16 = 3 ∧ b.toNat % 16 ≠ 7)

/-- The records a host reads after a DECODE: slots 0 to FIELD_COUNT - 1 (R57). -/
def State.records (s : State) : List FieldRec := s.fields.toList.take s.fieldCount.toNat

end Sys2Proof.Machine

/-! ### The message on the wire -/

namespace Sys2Proof.Wire

open Sys2Proof.Machine

/-- A field of the message: `n` bytes from offset `k`, big-endian, as a number (R87, R125). -/
def field (m : List Byte) (k n : Nat) : Nat :=
  ((m.drop k).take n).foldl (fun v b => v * 256 + b.toNat) 0

/-- The tcode of a message (R114). -/
def tcode (m : List Byte) : Nat := field m 3 1 / 16

/-- One field of a variant's layout: its kind, first byte, width in bytes. -/
structure Slot where
  kind : Nat
  start : Nat
  width : Nat
deriving DecidableEq, Repr

/-- The fields of each variant after the header, the data block aside (R116, R251 to R258). -/
def layout : Nat → List Slot
  | 0 => [⟨5, 4, 2⟩, ⟨6, 8, 4⟩, ⟨7, 12, 4⟩]
  | 1 => [⟨5, 4, 2⟩, ⟨6, 8, 4⟩, ⟨9, 12, 2⟩]
  | 2 => [⟨5, 4, 2⟩, ⟨8, 6, 1⟩]
  | 4 => [⟨5, 4, 2⟩, ⟨6, 8, 4⟩]
  | 5 => [⟨5, 4, 2⟩, ⟨6, 8, 4⟩, ⟨9, 12, 2⟩]
  | 6 => [⟨5, 4, 2⟩, ⟨8, 6, 1⟩, ⟨7, 12, 4⟩]
  | 7 => [⟨5, 4, 2⟩, ⟨8, 6, 1⟩, ⟨9, 12, 2⟩]
  | _ => []

/-- A record, from numbers. -/
def record (kind start len value : Nat) : FieldRec :=
  ⟨BitVec.ofNat 4 kind, BitVec.ofNat 32 start, BitVec.ofNat 32 len, BitVec.ofNat 32 value⟩

/-- The value a field reports: an rcode is the high nibble of its byte (R119), every other field is its
whole number. -/
def reported (m : List Byte) (f : Slot) : Nat :=
  if f.kind = 8 then field m f.start f.width / 16 else field m f.start f.width

/-- The three header records (R203). -/
def headerRecords (m : List Byte) : List FieldRec :=
  [ record (if 0x8000 ≤ field m 0 2 then 2 else 1) 0 2 (field m 0 2 % 0x8000),
    record 3 2 1 (field m 2 1 / 4),
    record 4 3 1 (tcode m) ]

/-- The data_length a DECODE holds: 0 where the layout has none or it is cut off (R209). -/
def dataLength (m : List Byte) : Nat :=
  if (tcode m = 1 ∨ tcode m = 5 ∨ tcode m = 7) ∧ 14 ≤ m.length then field m 12 2 else 0

/-- The message has a data block, whole (R210, R274). -/
def hasBlock (m : List Byte) : Bool :=
  decide (12 ≤ m.length) && (tcode m == 1 || tcode m == 7) && decide (16 + dataLength m ≤ m.length)

/-- What DECODE with detail reports of a message: nothing below 12 bytes (R242); otherwise the header,
each field of the layout that is whole (R201), and the data block if it is whole (R210). -/
def records (m : List Byte) : List FieldRec :=
  if m.length < 12 then []
  else
    headerRecords m
      ++ ((layout (tcode m)).filter fun f => decide (f.start + f.width ≤ m.length)).map
          (fun f => record f.kind f.start f.width (reported m f))
      ++ (if hasBlock m then [record 10 16 (dataLength m) (dataLength m)] else [])

/-- Where the cursor ends (R281). -/
def finalCursor (m : List Byte) : Nat :=
  if m.length < 12 then 0
  else
    match tcode m with
    | 0 | 1 | 6 | 7 => 16
    | 2 => 7
    | 4 => 12
    | 5 => 14
    | _ => 4

/-- The summary of a message (R242, R260 to R262). -/
def summary (m : List Byte) : Summary :=
  if m.length < 12 then ⟨true, false, false, false, 0#4⟩
  else
    ⟨true, true, decide (tcode m = 3 ∨ 8 ≤ tcode m),
      decide (tcode m = 0 ∨ tcode m = 1 ∨ tcode m = 4 ∨ tcode m = 5), BitVec.ofNat 4 (tcode m)⟩

/-- The summary's destination address (R262). -/
def destOff (m : List Byte) : Word :=
  if (summary m).hasDest then BitVec.ofNat 32 (field m 8 4) else 0#32

/-- The data block descriptor after a DECODE with detail (R54, R210). -/
def block (m : List Byte) : Block :=
  if hasBlock m then
    ⟨16#32, true, BitVec.ofNat 16 (dataLength m), BitVec.ofNat 16 (dataLength m / 4),
      BitVec.ofNat 16 (dataLength m)⟩
  else .zero

/-- How many engine steps a DECODE takes (R351). -/
def decodeSteps (m : List Byte) : Nat :=
  if m.length < 12 then 2
  else
    match tcode m with
    | 0 | 5 => 7
    | 1 => 9
    | 2 | 4 => 6
    | 6 => 8
    | 7 => 10
    | _ => 4

end Sys2Proof.Wire
end

