-- ==== Sys2Proof/Certificates/Slice0/Obligations.lean ====
section
/-! DEFINITION. The statements for the provers, each from the numbered rules of spec/. `{ s with … }` in a
conclusion is the whole frame: every field not named is unchanged, memory included. -/

open Sys2Proof Sys2Proof.Machine

/-! ### Encodings -/

/-- 30_encoding.md: decoding an encoded instruction gives it back, whatever its operands. -/
def Obligations.DecodeEncodeRoundTrip : Prop :=
  ∀ i : Instr, decode (encode i) = .ok i

/-- 30_encoding.md: micro-ops and header words lose no bit in decoding: encoding gives the word back. -/
def Obligations.EncodeDecodeKeepsEveryBit : Prop :=
  (∀ (b : Byte) (i : Instr), decode (.uop b) = .ok i → encode i = .uop b)
    ∧ ∀ (h : Word) (i : Instr), decode (.wire h) = .ok i → encode i = .wire h

/-- R130, R131, R132: what a `CMD` word names depends on OP, and for DECODE on DETAIL, alone. -/
def Obligations.CommandWordDecoding : Prop :=
  ∀ w : Word,
    (w.toNat % 16 = 1 → decode (.cmd w) = .ok .matchSig)
      ∧ (w.toNat % 16 = 2 → decode (.cmd w) = .ok .msglen)
      ∧ (w.toNat % 16 = 3 → w.toNat / 16 % 2 = 1 → decode (.cmd w) = .ok .decode)
      ∧ (w.toNat % 16 = 3 → w.toNat / 16 % 2 = 0 → decode (.cmd w) = .ok .decodeS)
      ∧ (w.toNat % 16 = 0 ∨ 4 ≤ w.toNat % 16 →
          decode (.cmd w) = .error (.reservedCommand (BitVec.ofNat 4 (w.toNat % 16))))

/-- Words of spec/'s encodings decode to the instructions they stand for. -/
def Obligations.SpecWordsDecode : Prop :=
  decode (.cmd 0x00000013#32) = .ok .decode
    ∧ decode (.uop 0x25#8) = .ok (.u16 5#4)
    ∧ decode (.uop 0x55#8) = .ok (.skip 5#4)
    ∧ decode (.wire 0x8005A800#32) = .ok (.wqreq ⟨1#1, 5#15, 0x2A#6, 0#2, 0#4⟩)
    ∧ decode (.wire 0x00000470#32) = .ok (.rbresp ⟨0#1, 0#15, 1#6, 0#2, 0#4⟩)

/-- R137: the ROM of the reset state holds no reserved micro-op, and wherever a ROM holds one the engine
refuses it: codes 9 to 15, an argument on a micro-op that takes none, U16 and U32 of another kind than
R136's. -/
def Obligations.ReservedMicroOpsRefused : Prop :=
  (∀ p ∈ State.reset.rom, ∀ b ∈ p, ¬ reservedMicroOp b)
    ∧ ∀ (s : State) (b : Byte),
      s.status.busy = true → s.phase = .body → fetchMicroOp s = .ok b → reservedMicroOp b →
      engineStep s = .refused (.reservedMicroOp b)

/-! ### A step runs the decoded instruction -/

/-- A `CMD` write whose word decodes to `i` runs `i`; the write returns Ok (R294, R81). -/
def Obligations.CommandWriteRunsDecoded : Prop :=
  ∀ (s : State) (rest : List Event) (w : Word) (i : Instr),
    s.agenda = .access (.write .reg 0x00 .word w) :: rest → decode (.cmd w) = .ok i →
    step s = andThen (exec i { s with agenda := rest })
      fun t => .next { t with response := some .ok }

/-- In BODY the engine's turn runs the micro-op at ROM[PROG][UPC] and moves UPC, but for END (R245). That it
does so where the micro-op is HDR, which no program of the spec holds, is the model's choice (log 24). -/
def Obligations.BodyStepRunsDecoded : Prop :=
  ∀ (s : State) (rest : List Event) (p : List Byte) (b : Byte) (i : Instr),
    s.agenda = .engine :: rest → s.status.busy = true → s.phase = .body →
    s.rom[s.prog.toNat]? = some p → p[s.upc.toNat]? = some b →
    decode (.uop b) = .ok i → i.wellFormed = true →
    step s = andThen (exec i { s with agenda := rest })
      fun t => .next (if i = .endProg then t else { t with upc := t.upc + 1#3 })

/-- In HDR the engine's turn runs the HDR micro-op and then the variant the header word decodes to (R243,
R244). -/
def Obligations.HeaderStepRunsDecoded : Prop :=
  ∀ (s : State) (rest : List Event) (h : Word) (i : Instr),
    s.agenda = .engine :: rest → s.status.busy = true → s.phase = .hdr →
    s.memRead4 0 = .ok h → decode (.wire h) = .ok i →
    step s = andThen (exec .hdr { s with agenda := rest }) fun t => exec i t

/-! ### Reset -/

/-- R61: after reset every piece of state holds its reset value; ID is its constant; no byte of BUF has
a value; `irq` is 0. -/
def Obligations.ResetValues : Prop :=
  State.reset.phase = .idle
    ∧ State.reset.upc = 0#3 ∧ State.reset.prog = 0#3
    ∧ State.reset.tcodeR = 0#4 ∧ State.reset.detailR = false
    ∧ State.reset.cur = 0#32 ∧ State.reset.dlen = 0#16
    ∧ (∀ r : Reg, r ≠ .id → State.reset.regValue r = 0#32)
    ∧ State.reset.regValue .id = 0x4F4D4D50#32
    ∧ State.reset.irq = false
    ∧ ∀ a, State.reset.buf.read? a = none

/-- R330: reset is one transition to the values of R61, whatever was running. What stays is the
parameter, the ROM and the model's own inputs and count. -/
def Obligations.ResetEventRestoresAll : Prop :=
  ∀ (s : State) (rest : List Event),
    s.agenda = .reset :: rest →
    step s = .next { State.reset with
      bufCap := s.bufCap, rom := s.rom, agenda := rest, draws := s.draws }

/-- The invariant holds at reset. It rests on the model's reset value of BUF_CAP (log 9). -/
def Obligations.ResetEstablishesInv : Prop := State.reset.Inv

/-- From every state that meets the invariant, a step gives a state that meets it. -/
def Obligations.StepKeepsInv : Prop :=
  ∀ s t : State, s.Inv → step s = .next t → t.Inv

/-! ### Host commands -/

/-- R160, R161: an accepted MATCH completes in two engine steps with the predicate over bytes 0 to 3 in
MATCH_RES, and changes nothing else but STATUS. -/
def Obligations.MatchRunsToResult : Prop :=
  ∀ (s : State) (d : Half) (b2 b3 : Byte),
    s.status.busy = false → 4 ≤ s.bufLen.toNat →
    s.memRead2 0 = .ok d → s.memRead1 2 = .ok b2 → s.memRead1 3 = .ok b3 →
    exec .matchSig s = .next { s with
        phase := .exec
        status := { s.status with busy := true, done := false, lastOp := 1#4 } }
      ∧ andThen (exec .matchSig s) (engineRun 2) = .next { s with
          phase := .idle
          status := { s.status with busy := false, done := true, lastOp := 1#4 }
          matchRes := decide (d = 0x0000#16 ∧ b2 &&& 0x03#8 = 0#8
            ∧ b3 &&& 0xF0#8 ≤ 0x70#8 ∧ b3 &&& 0xF0#8 ≠ 0x30#8 ∧ b3 &&& 0x0F#8 = 0#8) }

/-- R162: with fewer than 4 bytes MATCH gives 0 and reads no byte, whatever BUF holds. -/
def Obligations.MatchShortBuffer : Prop :=
  ∀ s : State,
    s.status.busy = false → s.bufLen.toNat < 4 →
    andThen (exec .matchSig s) (engineRun 2) = .next { s with
      phase := .idle
      status := { s.status with busy := false, done := true, lastOp := 1#4 }
      matchRes := false }

/-- R161: the predicate is the mask test over the header word H: `H & 0xFFFF030F = 0` and a valid
tcode in H[7:4]. -/
def Obligations.SignatureMaskForm : Prop :=
  ∀ (s : State) (h : Word) (d : Half) (b2 b3 : Byte),
    s.memRead4 0 = .ok h → s.memRead2 0 = .ok d → s.memRead1 2 = .ok b2 → s.memRead1 3 = .ok b3 →
    (signature d b2 b3 = true ↔
      h &&& 0xFFFF030F#32 = 0#32 ∧ h.toNat / 16 % 16 ∈ [0, 1, 2, 4, 5, 6, 7])

/-- R180, R183, R184, R185, R186: with 4 bytes at ORC_OFF, an accepted MSGLEN completes in two engine
steps with the length in MSGLEN_RES, and changes nothing else but STATUS. `t` is the tcode at the
offset; `n` is the data_length, which is read only for tcode 1 or 7 with 14 bytes available. -/
def Obligations.MsglenRunsToResult : Prop :=
  ∀ (s : State) (b : Byte) (n : Half) (t : Nat),
    s.status.busy = false →
    s.orcOff.toNat + 4 ≤ s.bufLen.toNat →
    s.memRead1 (s.orcOff.toNat + 3) = .ok b → t = b.toNat / 16 →
    ((t = 1 ∨ t = 7) → s.orcOff.toNat + 14 ≤ s.bufLen.toNat →
      s.memRead2 (s.orcOff.toNat + 12) = .ok n) →
    exec .msglen s = .next { s with
        phase := .exec
        status := { s.status with busy := true, done := false, lastOp := 2#4 } }
      ∧ andThen (exec .msglen s) (engineRun 2) = .next { s with
          phase := .idle
          status := { s.status with busy := false, done := true, lastOp := 2#4 }
          msglenRes :=
            if (t = 1 ∨ t = 7) ∧ s.orcOff.toNat + 14 ≤ s.bufLen.toNat then
              BitVec.ofNat 32 (16 + n.toNat)
            else if t = 0 ∨ t = 1 ∨ t = 5 ∨ t = 6 ∨ t = 7 then 16#32
            else if t = 2 ∨ t = 4 then 12#32
            else 8#32 }

/-- R181, R295: with fewer than 4 bytes at ORC_OFF, in exact arithmetic, MSGLEN reads no byte, raises
E_ORC_SHORT and still completes; MSGLEN_RES holds some value, and nothing says which (log 4: the draw
count is the model's own). -/
def Obligations.MsglenShortRaisesOrcShort : Prop :=
  ∀ s : State,
    s.status.busy = false → s.bufLen.toNat < s.orcOff.toNat + 4 →
    ∃ v : Word, andThen (exec .msglen s) (engineRun 2) = .next { s with
      phase := .idle
      status := { s.status with
        busy := false, done := true, lastOp := 2#4, err := true
        errCode := if s.status.err then s.status.errCode else 3#4 }
      msglenRes := v
      draws := s.draws + 1 }

/-- R187: MSGLEN depends on BUF_LEN, ORC_OFF and the bytes it reads alone, writes only MSGLEN_RES and
STATUS, and run again gives the same. -/
def Obligations.MsglenDependsOnPrefixOnly : Prop :=
  ∀ s s' t t' : State,
    s.status.busy = false → s'.status.busy = false →
    s.bufLen = s'.bufLen → s.orcOff = s'.orcOff → s.orcOff.toNat + 4 ≤ s.bufLen.toNat →
    (∀ k, k = 3 ∨ k = 12 ∨ k = 13 →
      s'.buf.read? (s.orcOff.toNat + k) = s.buf.read? (s.orcOff.toNat + k)) →
    andThen (exec .msglen s) (engineRun 2) = .next t →
    andThen (exec .msglen s') (engineRun 2) = .next t' →
    t'.msglenRes = t.msglenRes
      ∧ t = { s with phase := .idle, msglenRes := t.msglenRes, status := t.status }
      ∧ andThen (exec .msglen t) (engineRun 2) = .next t

/-- R240, R241: an accepted DECODE or DECODE.S latches DETAIL, clears its results and working registers,
and goes to GATE; VIEW_SEL, CURSOR, DLEN_RD and the other commands' results are not touched. -/
def Obligations.DecodeStartsFresh : Prop :=
  ∀ s : State,
    s.status.busy = false →
    ∀ (i : Instr) (detail : Bool),
      (i = .decode ∧ detail = true ∨ i = .decodeS ∧ detail = false) →
      exec i s = .next { s with
        phase := .gate
        status := { s.status with busy := true, done := false, lastOp := 3#4 }
        detailR := detail
        cur := 0#32, dlen := 0#16, tcodeR := 0#4, upc := 0#3, prog := 0#3
        fieldCount := 0#4
        fields := Vector.replicate 8 ⟨0#4, 0#32, 0#32, 0#32⟩
        summary := ⟨false, false, false, false, 0#4⟩
        sumDestOff := 0#32
        block := ⟨0#32, false, 0#16, 0#16, 0#16⟩
        viewData := 0#32 }

/-- R294: a command issued while busy is dropped: it raises E_BUSY and does nothing else. -/
def Obligations.BusyDropsCommands : Prop :=
  ∀ (s : State) (i : Instr),
    s.status.busy = true →
    (i = .matchSig ∨ i = .msglen ∨ i = .decode ∨ i = .decodeS) →
    exec i s = .next { s with status := { s.status with
      err := true
      errCode := if s.status.err then s.status.errCode else 2#4 } }

/-! ### DECODE -/

/-- The whole of DECODE: an idle engine under the invariant, holding any message, accepts DECODE and in the
number of steps of R351 completes with exactly the records, summary, destination address, block, cursor
and data length the wire layout gives that message; nothing of MATCH's, MSGLEN's or the host's changes. -/
def Obligations.DecodeReportsMessage : Prop :=
  ∀ (s : State) (m : List Byte),
    s.Inv → s.status.busy = false → s.Holds m →
    ∃ u : State,
      andThen (exec .decode s) (engineRun (Wire.decodeSteps m)) = .next u
        ∧ u.records = Wire.records m
        ∧ (∀ i : Fin 8, (Wire.records m).length ≤ i.val → u.fields[i] = FieldRec.zero)
        ∧ u.summary = Wire.summary m
        ∧ u.sumDestOff = Wire.destOff m
        ∧ u.block = Wire.block m
        ∧ u.cursor.toNat = Wire.finalCursor m
        ∧ u.dlenRd.toNat = Wire.dataLength m
        ∧ u.viewData = 0#32
        ∧ u.phase = .idle
        ∧ u.status = { s.status with busy := false, done := true, lastOp := 3#4 }
        ∧ u.matchRes = s.matchRes ∧ u.msglenRes = s.msglenRes
        ∧ u.buf = s.buf ∧ u.bufLen = s.bufLen ∧ u.orcOff = s.orcOff
        ∧ u.irqEn = s.irqEn ∧ u.viewSel = s.viewSel

/-- R263: DECODE.S gives the same summary, destination address, cursor and data length as the message's
DECODE, and no record and no block. Neither changes MATCH_RES, MSGLEN_RES, BUF, BUF_LEN, ORC_OFF, CTRL or
VIEW_SEL over the whole command (R285, R345). -/
def Obligations.SummaryIndependentOfDetail : Prop :=
  ∀ (s : State) (m : List Byte),
    s.Inv → s.status.busy = false → s.Holds m →
    ∃ u v : State,
      andThen (exec .decode s) (engineRun (Wire.decodeSteps m)) = .next u
        ∧ andThen (exec .decodeS s) (engineRun (Wire.decodeSteps m)) = .next v
        ∧ v.summary = u.summary ∧ v.sumDestOff = u.sumDestOff
        ∧ v.cursor = u.cursor ∧ v.dlenRd = u.dlenRd
        ∧ v.status = u.status ∧ v.phase = .idle
        ∧ v.fieldCount = 0#4 ∧ v.fields = Vector.replicate 8 FieldRec.zero
        ∧ v.block.valid = false
        ∧ ∀ t : State, t = u ∨ t = v →
            t.matchRes = s.matchRes ∧ t.msglenRes = s.msglenRes
              ∧ t.buf = s.buf ∧ t.bufLen = s.bufLen ∧ t.orcOff = s.orcOff
              ∧ t.irqEn = s.irqEn ∧ t.viewSel = s.viewSel

/-- R242: a message below 12 bytes gives a summary with no type and no destination, and no record, in two
steps, whatever BUF holds. -/
def Obligations.ShortDecodeReportsNothing : Prop :=
  ∀ s : State,
    s.status.busy = false → s.bufLen.toNat < 12 →
    ∃ u : State,
      andThen (exec .decode s) (engineRun 2) = .next u
        ∧ u.phase = .idle ∧ u.status.busy = false ∧ u.status.done = true
        ∧ u.status.err = s.status.err
        ∧ u.summary = ⟨true, false, false, false, 0#4⟩ ∧ u.sumDestOff = 0#32
        ∧ u.fieldCount = 0#4 ∧ u.fields = Vector.replicate 8 FieldRec.zero
        ∧ u.block.valid = false ∧ u.cursor = 0#32 ∧ u.dlenRd = 0#16

/-- R284, R351: a DECODE ends after exactly the model's step count of its message, at most 10: at every
earlier turn the engine is busy, and at that one it is not. -/
def Obligations.DecodeTakesItsSteps : Prop :=
  ∀ (s : State) (m : List Byte) (k : Nat),
    s.Inv → s.status.busy = false → s.Holds m → k ≤ Wire.decodeSteps m →
    Wire.decodeSteps m ≤ 10
      ∧ ∃ u : State, andThen (exec .decode s) (engineRun k) = .next u
          ∧ (u.status.busy = true ↔ k < Wire.decodeSteps m)

/-- R286: the Write Quadlet Request built from known values decodes to exactly those values. -/
def Obligations.WriteQuadletRoundTrip : Prop :=
  ∀ (s : State) (d : BitVec 15) (t : BitVec 6) (c : Half) (a q : Word),
    s.Inv → s.status.busy = false → s.Holds (writeQuadletRequest 0#1 d t c a q) →
    ∃ u : State,
      andThen (exec .decode s) (engineRun 7) = .next u
        ∧ u.status.busy = false
        ∧ u.records =
          [ ⟨1#4, 0#32, 2#32, d.setWidth 32⟩, ⟨3#4, 2#32, 1#32, t.setWidth 32⟩,
            ⟨4#4, 3#32, 1#32, 0#32⟩, ⟨5#4, 4#32, 2#32, c.setWidth 32⟩,
            ⟨6#4, 8#32, 4#32, a⟩, ⟨7#4, 12#32, 4#32, q⟩ ]

/-- R212: a truncated message reports a prefix of what the whole message reports. -/
def Obligations.TruncationReportsPrefix : Prop :=
  ∀ (s s' u u' : State) (m : List Byte) (k : Nat),
    s.Inv → s.status.busy = false → s.Holds m →
    s'.Inv → s'.status.busy = false → s'.Holds (m.take k) →
    andThen (exec .decode s) (engineRun (Wire.decodeSteps m)) = .next u →
    andThen (exec .decode s') (engineRun (Wire.decodeSteps (m.take k))) = .next u' →
    u'.records <+: u.records

/-- R241: a DECODE forgets: two idle engines that hold the same message end with the same results,
whatever earlier commands left in them. -/
def Obligations.DecodeForgetsThePast : Prop :=
  ∀ (s s' u u' : State) (n : Nat),
    s.status.busy = false → s'.status.busy = false →
    s.buf = s'.buf → s.bufLen = s'.bufLen → s.rom = s'.rom →
    andThen (exec .decode s) (engineRun n) = .next u → u.status.busy = false →
    andThen (exec .decode s') (engineRun n) = .next u' →
    u'.status.busy = false
      ∧ u'.fields = u.fields ∧ u'.fieldCount = u.fieldCount
      ∧ u'.summary = u.summary ∧ u'.sumDestOff = u.sumDestOff
      ∧ u'.block = u.block ∧ u'.viewData = u.viewData
      ∧ u'.cursor = u.cursor ∧ u'.dlenRd = u.dlenRd

/-- R290, R282: no message content stops the engine: under the invariant, with every byte of the message
written, the engine's turn gives a next state, and only MSGLEN can record an error. -/
def Obligations.EngineNeverStops : Prop :=
  ∀ s : State,
    s.Inv → s.Loaded →
    ∃ t : State, engineStep s = .next t
      ∧ (t.status.err ≠ s.status.err ∨ t.status.errCode ≠ s.status.errCode →
          s.phase = .exec ∧ s.status.lastOp = 2#4
            ∧ s.bufLen.toNat < s.orcOff.toNat + 4 ∧ t.status.errCode = 3#4)

/-- R86: the engine never reads at or past BUF_LEN: bytes there do not change what its turn gives. -/
def Obligations.EngineReadsOnlyTheMessage : Prop :=
  ∀ (s t : State) (buf' : Memory),
    s.Inv → (∀ a, a < s.bufLen.toNat → buf'.read? a = s.buf.read? a) →
    engineStep s = .next t →
    engineStep { s with buf := buf' } = .next { t with buf := buf' }

/-- R84, R285, R313: the engine's turn never changes BUF, BUF_LEN, ORC_OFF, CTRL or VIEW_SEL, nor what
the model holds beside the block (the parameter, the ROM, the inputs, the response); an idle engine's
turn changes nothing at all. -/
def Obligations.EngineTurnFrame : Prop :=
  ∀ s : State,
    (s.status.busy = false → engineStep s = .next s)
      ∧ ∀ t : State, engineStep s = .next t →
          t.buf = s.buf ∧ t.bufLen = s.bufLen ∧ t.orcOff = s.orcOff ∧ t.irqEn = s.irqEn
            ∧ t.viewSel = s.viewSel ∧ t.bufCap = s.bufCap ∧ t.rom = s.rom
            ∧ t.agenda = s.agenda ∧ t.response = s.response

/-! ### Micro-ops -/

/-- R200: Emit fills the next slot and counts it when DETAIL_R is 1, and writes nothing when it is 0. -/
def Obligations.EmitAppendsRecord : Prop :=
  ∀ (s : State) (kind : Nibble) (start len value : Word),
    (s.detailR = false → s.emit kind start len value = s)
      ∧ (s.detailR = true → s.fieldCount.toNat < 8 →
          ∃ t : State, s.emit kind start len value = t
            ∧ t = { s with fields := t.fields, fieldCount := s.fieldCount + 1#4 }
            ∧ ∀ i : Fin 8, t.fields[i] =
                if i.val = s.fieldCount.toNat then ⟨kind, start, len, value⟩ else s.fields[i])

/-- R203: HDR reports the destination or boot id, the label and the tcode, latches the tcode and puts the
cursor at 4. -/
def Obligations.HdrReportsHeader : Prop :=
  ∀ (s : State) (d : Half) (b2 b3 : Byte),
    s.memRead2 0 = .ok d → s.memRead1 2 = .ok b2 → s.memRead1 3 = .ok b3 →
    exec .hdr s = .next
      { ((s.emit (if 0x8000 ≤ d.toNat then 2#4 else 1#4) 0#32 2#32
            (BitVec.ofNat 32 (d.toNat % 0x8000))).emit
            3#4 2#32 1#32 (BitVec.ofNat 32 (b2.toNat / 4))).emit
            4#4 3#32 1#32 (BitVec.ofNat 32 (b3.toNat / 16)) with
        tcodeR := BitVec.ofNat 4 (b3.toNat / 16), cur := 4#32 }

/-- R204: U16 reports its two bytes when they are inside the message, and advances 2 either way. -/
def Obligations.U16ReportsWhatFits : Prop :=
  ∀ (s : State) (kind : Nibble) (v : Half),
    decode (.uop (0x2#4 ++ kind)) = .ok (.u16 kind)
      ∧ (s.cur.toNat + 2 ≤ s.bufLen.toNat → s.memRead2 s.cur.toNat = .ok v →
        exec (.u16 kind) s = .next
          { s.emit kind s.cur 2#32 (v.setWidth 32) with cur := s.cur + 2#32 })
      ∧ (s.bufLen.toNat < s.cur.toNat + 2 →
          exec (.u16 kind) s = .next { s with cur := s.cur + 2#32 })

/-- R205: U32 reports its four bytes when they are inside the message, and advances 4 either way. -/
def Obligations.U32ReportsWhatFits : Prop :=
  ∀ (s : State) (kind : Nibble) (v : Word),
    decode (.uop (0x3#4 ++ kind)) = .ok (.u32 kind)
      ∧ (s.cur.toNat + 4 ≤ s.bufLen.toNat → s.memRead4 s.cur.toNat = .ok v →
        exec (.u32 kind) s = .next
          { s.emit kind s.cur 4#32 v with cur := s.cur + 4#32 })
      ∧ (s.bufLen.toNat < s.cur.toNat + 4 →
          exec (.u32 kind) s = .next { s with cur := s.cur + 4#32 })

/-- R206: RCODE reports the high nibble of its byte when it is inside the message, and advances 1. -/
def Obligations.RcodeReportsHighNibble : Prop :=
  ∀ (s : State) (b : Byte),
    decode (.uop 0x40#8) = .ok .rcode
      ∧ (s.cur.toNat + 1 ≤ s.bufLen.toNat → s.memRead1 s.cur.toNat = .ok b →
        exec .rcode s = .next
          { s.emit 8#4 s.cur 1#32 (BitVec.ofNat 32 (b.toNat / 16)) with cur := s.cur + 1#32 })
      ∧ (s.bufLen.toNat < s.cur.toNat + 1 →
          exec .rcode s = .next { s with cur := s.cur + 1#32 })

/-- R207, R211: SKIP n advances the cursor by n and reads nothing; END goes to FINISH and nothing else. -/
def Obligations.SkipAdvancesEndFinishes : Prop :=
  ∀ (s : State) (n : Nibble),
    decode (.uop (0x5#4 ++ n)) = .ok (.skip n)
      ∧ exec (.skip n) s = .next { s with cur := s.cur + n.setWidth 32 }
      ∧ decode (.uop 0x00#8) = .ok .endProg
      ∧ exec .endProg s = .next { s with phase := .finish }

/-- R208: DOFF passes two bytes unread, reports the address when its four bytes are inside the message,
and advances 6 in all either way. -/
def Obligations.DoffReportsAddress : Prop :=
  ∀ (s : State) (a : Word) (c : Word),
    c = s.cur + 2#32 →
    decode (.uop 0x60#8) = .ok .doff
      ∧ (c.toNat + 4 ≤ s.bufLen.toNat → s.memRead4 c.toNat = .ok a →
          exec .doff s = .next { s.emit 6#4 c 4#32 a with cur := c + 4#32 })
      ∧ (s.bufLen.toNat < c.toNat + 4 →
          exec .doff s = .next { s with cur := c + 4#32 })

/-- R209: DLEN reports and holds the data length when it is inside the message, holds 0 when it is not,
and advances 2 either way. -/
def Obligations.DlenHoldsLength : Prop :=
  ∀ (s : State) (v : Half),
    decode (.uop 0x70#8) = .ok .dlen
      ∧ (s.cur.toNat + 2 ≤ s.bufLen.toNat → s.memRead2 s.cur.toNat = .ok v →
        exec .dlen s = .next
          { s.emit 9#4 s.cur 2#32 (v.setWidth 32) with dlen := v, cur := s.cur + 2#32 })
      ∧ (s.bufLen.toNat < s.cur.toNat + 2 →
          exec .dlen s = .next { s with dlen := 0#16, cur := s.cur + 2#32 })

/-- R210: BLOCK reports and describes a block that is whole, and does nothing else: no byte is read and
the cursor stays. Without detail it does nothing at all. -/
def Obligations.BlockIsAllOrNothing : Prop :=
  ∀ s : State,
    decode (.uop 0x80#8) = .ok .block
      ∧ (s.cur.toNat + s.dlen.toNat ≤ s.bufLen.toNat → s.detailR = true →
        exec .block s = .next
          { s.emit 10#4 s.cur (s.dlen.setWidth 32) (s.dlen.setWidth 32) with
            block := ⟨s.cur, true, s.dlen, BitVec.ofNat 16 (s.dlen.toNat / 4), s.dlen⟩ })
      ∧ (s.bufLen.toNat < s.cur.toNat + s.dlen.toNat ∨ s.detailR = false →
          exec .block s = .next s)

/-! ### Wire variants -/

/-- R243, R244, R251, R252, R254, R255: the variants with a destination put the tcode and the address of
bytes 8 to 11 in the summary and select their own program. -/
def Obligations.DestVariantsDispatch : Prop :=
  ∀ (s : State) (h : Header) (a : Word) (i : Instr) (t : Nibble),
    (i = .wqreq h ∧ t = 0#4) ∨ (i = .wbreq h ∧ t = 1#4)
      ∨ (i = .rqreq h ∧ t = 4#4) ∨ (i = .rbreq h ∧ t = 5#4) →
    s.memRead4 8 = .ok a →
    exec i s = .next { s with
      summary := { s.summary with
        hasType := true, tcodeRsvd := false, hasDest := true, tcode := t }
      sumDestOff := a
      prog := t.setWidth 3, upc := 0#3, phase := .body }

/-- R243, R244, R253, R256, R257, R258: the variants without a destination put the tcode in the summary,
with the reserved mark for tcode 3 and 8 to 15, and select their own program or the unknown sink. -/
def Obligations.OtherVariantsDispatch : Prop :=
  ∀ (s : State) (h : Header) (low : BitVec 3) (i : Instr) (t : Nibble) (p : BitVec 3) (rsvd : Bool),
    (i = .wresp h ∧ t = 2#4 ∧ p = 2#3 ∧ rsvd = false)
      ∨ (i = .rqresp h ∧ t = 6#4 ∧ p = 6#3 ∧ rsvd = false)
      ∨ (i = .rbresp h ∧ t = 7#4 ∧ p = 7#3 ∧ rsvd = false)
      ∨ (i = .rsvd3 h ∧ t = 3#4 ∧ p = 3#3 ∧ rsvd = true)
      ∨ (i = .rsvd8to15 h low ∧ t.toNat = 8 + low.toNat ∧ p = 3#3 ∧ rsvd = true) →
    exec i s = .next { s with
      summary := { s.summary with hasType := true, tcodeRsvd := rsvd, tcode := t }
      prog := p, upc := 0#3, phase := .body }

/-! ### Errors, STATUS, the interrupt line -/

/-- R293: the first error's code is kept and ERR is set; a second error changes nothing; no step clears ERR
or changes ERRCODE but a STATUS write with bit [2] and reset (R330); and that write clears both. -/
def Obligations.ErrorsAreSticky : Prop :=
  (∀ (s : State) (e : ErrorKind),
    (s.status.err = false →
        s.raise e = { s with status := { s.status with err := true, errCode := e.code } })
      ∧ (s.status.err = true → s.raise e = s))
    ∧ (∀ s t : State,
        s.status.err = true → step s = .next t → s.agenda.head? ≠ some .reset →
        (∀ v : Word, s.agenda.head? = some (.access (.write .reg 0x04 .word v)) → v.toNat / 4 % 2 = 0) →
        t.status.err = true ∧ t.status.errCode = s.status.errCode)
    ∧ ∀ (s : State) (v : Word),
        v.toNat / 4 % 2 = 1 →
        ∃ t : State, hostAccess s (.write .reg 0x04 .word v) = .next t
          ∧ t.status.err = false ∧ t.status.errCode = 0#4

/-- R301, R43: a STATUS write clears DONE by bit [1], ERR and ERRCODE by bit [2], and changes nothing else,
busy or idle. -/
def Obligations.StatusWriteClears : Prop :=
  ∀ (s : State) (v : Word),
    hostAccess s (.write .reg 0x04 .word v) = .next { s with
      response := some .ok
      status := { s.status with
        done := if v.toNat / 2 % 2 = 1 then false else s.status.done
        err := if v.toNat / 4 % 2 = 1 then false else s.status.err
        errCode := if v.toNat / 4 % 2 = 1 then 0#4 else s.status.errCode } }

/-- R44, R46: an accepted CTRL write sets IRQ_EN from bit [0], busy or idle; an idle ORC_OFF write sets the
whole register. -/
def Obligations.CtrlAndOrcOffWrites : Prop :=
  ∀ (s : State) (v : Word),
    hostAccess s (.write .reg 0x08 .word v) = .next { s with
        response := some .ok, irqEn := decide (v.toNat % 2 = 1) }
      ∧ (s.status.busy = false →
          hostAccess s (.write .reg 0x10 .word v) = .next { s with
            response := some .ok, orcOff := v })

/-- R131, R292: an idle `CMD` write with a reserved OP starts nothing and raises E_BADCMD. -/
def Obligations.ReservedCommandRecorded : Prop :=
  ∀ (s : State) (v : Word),
    s.status.busy = false → (v.toNat % 16 = 0 ∨ 4 ≤ v.toNat % 16) →
    hostAccess s (.write .reg 0x00 .word v) = .next { s with
      response := some .ok
      status := { s.status with
        err := true
        errCode := if s.status.err then s.status.errCode else 1#4 } }

/-- R294, R299: while busy, a write to CMD, BUF_LEN, ORC_OFF or VIEW_SEL, and an admitted write to BUF, is
dropped: it returns Ok, raises E_BUSY and nothing more. -/
def Obligations.BusyDropsWrites : Prop :=
  ∀ (s : State) (v : Word) (a : Access),
    s.status.busy = true →
    (a = .write .reg 0x00 .word v ∨ a = .write .reg 0x0C .word v
      ∨ a = .write .reg 0x10 .word v ∨ a = .write .reg 0x3C .word v
      ∨ (∃ off, off < s.bufCap ∧ a = .write .buf off .byte v)
      ∨ (∃ off, off % 4 = 0 ∧ off + 4 ≤ s.bufCap ∧ a = .write .buf off .word v)) →
    hostAccess s a = .next { s with
      response := some .ok
      status := { s.status with
        err := true
        errCode := if s.status.err then s.status.errCode else 2#4 } }

/-- R45, R296: an idle BUF_LEN write up to BUF_CAP is accepted and clears BLK_VALID; a greater value is
dropped and raises E_BUFLEN. -/
def Obligations.BufLenWrite : Prop :=
  ∀ (s : State) (v : Word),
    s.status.busy = false →
    (v.toNat ≤ s.bufCap →
        hostAccess s (.write .reg 0x0C .word v) = .next { s with
          response := some .ok, bufLen := v, block := { s.block with valid := false } })
      ∧ (s.bufCap < v.toNat →
          hostAccess s (.write .reg 0x0C .word v) = .next { s with
            response := some .ok
            status := { s.status with
              err := true
              errCode := if s.status.err then s.status.errCode else 4#4 } })

/-- R304, R305: the line follows IRQ_EN and the two causes, whatever set them. -/
def Obligations.IrqFollowsStatus : Prop :=
  ∀ s : State,
    (s.irq = true ↔ s.irqEn = true ∧ (s.status.done = true ∨ s.status.err = true))
      ∧ (∀ e : ErrorKind, s.irqEn = true → (s.raise e).irq = true)
      ∧ (s.irqEn = true → s.complete.irq = true)

/-! ### Views -/

/-- R272: an idle VIEW_SEL write that selects an element of a valid block latches it: a big-endian word
or a zero-extended byte; the reserved bits of VIEW_SEL are dropped. -/
def Obligations.ViewLatchesElement : Prop :=
  ∀ (s : State) (v w : Word) (b : Byte) (k : Nat),
    s.status.busy = false → s.block.valid = true → k = v.toNat % 2 ^ 16 →
    (v.toNat < 2 ^ 31 → k < s.block.words.toNat →
        s.memRead4 (s.block.start.toNat + 4 * k) = .ok w →
        hostAccess s (.write .reg 0x3C .word v) = .next { s with
          response := some .ok, viewSel := v &&& 0x8000FFFF#32, viewData := w })
      ∧ (2 ^ 31 ≤ v.toNat → k < s.block.bytes.toNat →
          s.memRead1 (s.block.start.toNat + k) = .ok b →
          hostAccess s (.write .reg 0x3C .word v) = .next { s with
            response := some .ok, viewSel := v &&& 0x8000FFFF#32, viewData := b.setWidth 32 })

/-- R297: an idle VIEW_SEL write with no valid block or an index out of range writes VIEW_SEL, sets
VIEW_DATA to 0 and raises E_VIEW. -/
def Obligations.ViewBadIndex : Prop :=
  ∀ (s : State) (v : Word),
    s.status.busy = false →
    (s.block.valid = false
      ∨ (v.toNat < 2 ^ 31 ∧ s.block.words.toNat ≤ v.toNat % 2 ^ 16)
      ∨ (2 ^ 31 ≤ v.toNat ∧ s.block.bytes.toNat ≤ v.toNat % 2 ^ 16)) →
    hostAccess s (.write .reg 0x3C .word v) = .next { s with
      response := some .ok
      viewSel := v &&& 0x8000FFFF#32
      viewData := 0#32
      status := { s.status with
        err := true
        errCode := if s.status.err then s.status.errCode else 5#4 } }

/-- R272, R86: under the invariant a view reads only inside the message: with every byte of the message
written, a VIEW_SEL write never stops the machine. -/
def Obligations.ViewNeverStops : Prop :=
  ∀ (s : State) (v : Word),
    s.Inv → s.Loaded → ∃ t : State, hostAccess s (.write .reg 0x3C .word v) = .next t

/-! ### The host bus -/

/-- R82, R83, R298: an access the bus does not admit returns BusError and changes nothing else: a REG
access of one byte, misaligned or unmapped; a BUF access past BUF_CAP or a misaligned word. -/
def Obligations.NonAdmittedAccess : Prop :=
  ∀ (s : State) (sp : Space) (off : Nat) (sz : Size) (v : Word) (a : Access),
    (a = .read sp off sz ∨ a = .write sp off sz v) →
    (sp = .reg ∧ (sz = .byte ∨ off % 4 ≠ 0 ∨ (0x48 ≤ off ∧ off < 0x80) ∨ 0x100 ≤ off)
      ∨ sp = .buf ∧ sz = .byte ∧ s.bufCap ≤ off
      ∨ sp = .buf ∧ sz = .word ∧ (off % 4 ≠ 0 ∨ s.bufCap < off + 4)) →
    hostAccess s a = .next { s with response := some .busError }

/-- R41: a write to a read-only register is ignored, busy or idle: it returns Ok and changes nothing. -/
def Obligations.ReadOnlyWritesIgnored : Prop :=
  ∀ (s : State) (off : Nat) (v : Word),
    off % 4 = 0 → (0x14 ≤ off ∧ off ≤ 0x38 ∨ off = 0x40 ∨ off = 0x44 ∨ 0x80 ≤ off ∧ off ≤ 0xFC) →
    hostAccess s (.write .reg off .word v) = .next { s with response := some .ok }

/-- R84: an idle admitted BUF write stores its bytes big-endian and leaves every other byte; it clears
BLK_VALID and changes nothing else, BUF_LEN included. -/
def Obligations.BufWriteStores : Prop :=
  ∀ (s : State) (off : Nat) (sz : Size) (v : Word),
    s.status.busy = false → s.buf.wf s.bufCap = true →
    (sz = .byte ∧ off < s.bufCap ∨ sz = .word ∧ off % 4 = 0 ∧ off + 4 ≤ s.bufCap) →
    ∃ t : State,
      hostAccess s (.write .buf off sz v) = .next t
        ∧ t = { s with
            response := some .ok, buf := t.buf, block := { s.block with valid := false } }
        ∧ t.buf.wf s.bufCap = true
        ∧ (sz = .byte → t.memRead1 off = .ok (BitVec.ofNat 8 v.toNat))
        ∧ (sz = .word → t.memRead4 off = .ok v)
        ∧ ∀ a, (a < off ∨ off + (if sz = .byte then 1 else 4) ≤ a) →
            t.buf.read? a = s.buf.read? a

/-- R85: an admitted BUF read returns the byte, or the big-endian word; it changes nothing else. A byte
nothing has written since reset is a fault (R333). -/
def Obligations.BufReadReturns : Prop :=
  ∀ (s : State) (off : Nat) (b : Byte) (w : Word),
    (off < s.bufCap → s.buf.read? off = some b →
        hostAccess s (.read .buf off .byte) =
          .next { s with response := some (.data (b.setWidth 32)) })
      ∧ (off % 4 = 0 → off + 4 ≤ s.bufCap → s.memRead4 off = .ok w →
          hostAccess s (.read .buf off .word) = .next { s with response := some (.data w) })
      ∧ (off < s.bufCap → s.buf.read? off = none →
          hostAccess s (.read .buf off .byte) = .fault (.unwrittenByte off))
      ∧ (off % 4 = 0 → off + 4 ≤ s.bufCap →
          (∃ k, k < 4 ∧ s.buf.read? (off + k) = none) →
          ∃ a, hostAccess s (.read .buf off .word) = .fault (.unwrittenByte a))

/-- R41 to R57: a REG read at each mapped offset returns that register's fields at their bits, reserved bits
0, and changes nothing else. It does so while the engine is idle, and while it is busy too at the
offsets of CMD, STATUS, CTRL, BUF_LEN, ORC_OFF, VIEW_SEL and ID, which hold no result (R341). -/
def Obligations.RegisterReadReturns : Prop :=
  ∀ (s : State) (off : Nat) (v : Word),
    (s.status.busy = false ∨ off ∈ [0x00, 0x04, 0x08, 0x0C, 0x10, 0x3C, 0x44]) →
    (off = 0x00 ∧ v = 0#32
      ∨ off = 0x04 ∧ v.toNat =
          s.status.busy.toNat + 2 * s.status.done.toNat + 4 * s.status.err.toNat
            + 16 * s.status.lastOp.toNat + 256 * s.status.errCode.toNat
      ∨ off = 0x08 ∧ v.toNat = s.irqEn.toNat
      ∨ off = 0x0C ∧ v = s.bufLen
      ∨ off = 0x10 ∧ v = s.orcOff
      ∨ off = 0x14 ∧ v.toNat = s.matchRes.toNat
      ∨ off = 0x18 ∧ v = s.msglenRes
      ∨ off = 0x1C ∧ v.toNat =
          s.summary.valid.toNat + 2 * s.summary.hasType.toNat + 4 * s.summary.tcodeRsvd.toNat
            + 8 * s.summary.hasDest.toNat + 16 * s.summary.tcode.toNat
      ∨ off = 0x20 ∧ v = s.sumDestOff
      ∨ off = 0x24 ∧ v.toNat = s.fieldCount.toNat
      ∨ off = 0x28 ∧ v = s.cursor
      ∨ off = 0x2C ∧ v.toNat = s.dlenRd.toNat
      ∨ off = 0x30 ∧ v = s.block.start
      ∨ off = 0x34 ∧ v.toNat = 2 ^ 31 * s.block.valid.toNat + s.block.len.toNat
      ∨ off = 0x38 ∧ v.toNat = 2 ^ 16 * s.block.words.toNat + s.block.bytes.toNat
      ∨ off = 0x3C ∧ v = s.viewSel
      ∨ off = 0x40 ∧ v = s.viewData
      ∨ off = 0x44 ∧ v = 0x4F4D4D50#32
      ∨ ∃ i : Fin 8,
          off = 0x80 + 16 * i.val ∧ v.toNat = s.fields[i].kind.toNat
            ∨ off = 0x84 + 16 * i.val ∧ v = s.fields[i].start
            ∨ off = 0x88 + 16 * i.val ∧ v = s.fields[i].len
            ∨ off = 0x8C + 16 * i.val ∧ v = s.fields[i].value) →
    hostAccess s (.read .reg off .word) = .next { s with response := some (.data v) }

/-- R43, R49, R54: the packed registers read with their fields at the bits the rules give. -/
def Obligations.PackedRegisterBits : Prop :=
  ∀ s : State,
    (s.regValue .status).toNat =
        s.status.busy.toNat + 2 * s.status.done.toNat + 4 * s.status.err.toNat
          + 16 * s.status.lastOp.toNat + 256 * s.status.errCode.toNat
      ∧ (s.regValue .summary).toNat =
        s.summary.valid.toNat + 2 * s.summary.hasType.toNat + 4 * s.summary.tcodeRsvd.toNat
          + 8 * s.summary.hasDest.toNat + 16 * s.summary.tcode.toNat
      ∧ (s.regValue .blkInfo).toNat = 2 ^ 31 * s.block.valid.toNat + s.block.len.toNat
      ∧ (s.regValue .blkCounts).toNat = 2 ^ 16 * s.block.words.toNat + s.block.bytes.toNat

/-- R91: no read has a side effect: whatever a host read answers, the state is as before but for the
model's own response and draw count (logs 3, 5). -/
def Obligations.ReadsHaveNoSideEffect : Prop :=
  ∀ (s t : State) (sp : Space) (off : Nat) (sz : Size),
    hostAccess s (.read sp off sz) = .next t →
    t = { s with response := t.response, draws := t.draws }

/-- R341: a result register read while busy (MATCH_RES, MSGLEN_RES, SUMMARY, SUM_DEST_OFF, FIELD_COUNT,
CURSOR, DLEN_RD, the block descriptor, VIEW_DATA, and the four words of every field slot) returns some
value, and nothing says which; the read still completes. -/
def Obligations.BusyResultReadCompletes : Prop :=
  ∀ (s : State) (off : Nat),
    s.status.busy = true →
    (off ∈ [0x14, 0x18, 0x1C, 0x20, 0x24, 0x28, 0x2C, 0x30, 0x34, 0x38, 0x40]
      ∨ (0x80 ≤ off ∧ off ≤ 0xFC ∧ off % 4 = 0)) →
    ∃ v : Word, hostAccess s (.read .reg off .word) =
      .next { s with response := some (.data v), draws := s.draws + 1 }

/-! ### Several engines -/

/-- R311: an engine's step leaves every other engine as it was, and does to its own state what the engine
alone would do. -/
def Obligations.EnginesShareNothing : Prop :=
  ∀ (m m' : Engines) (e : Nat),
    m.stepAt e = some (.next m') →
    (∀ k, k ≠ e → m'.engines[k]? = m.engines[k]?)
      ∧ ∃ s t : State, m.engines[e]? = some s ∧ step s = .next t ∧ m'.engines[e]? = some t
end

