-- ==== Sys2Proof/Laws/Memory.lean ====
section
/-! SUPPORT. The laws of BUF: every write keeps the canonical form, a written byte reads back, and every
other byte reads as before. -/

namespace Sys2Proof.Machine

/-- A canonical memory whose least offset is above `lo` is canonical from any lower bound. -/
theorem Memory.inOrder_mono {m : Memory} {lo lo' hi : Nat} (h : m.inOrder lo hi = true)
    (hl : lo' ≤ lo) : m.inOrder lo' hi = true := by
  cases m with
  | nil => rfl
  | cons c m =>
    simp only [Memory.inOrder, Bool.and_eq_true, decide_eq_true_eq] at h ⊢
    exact ⟨⟨by omega, h.1.2⟩, h.2⟩

/-- A canonical memory lists nothing below its least offset. -/
theorem Memory.read?_below {m : Memory} {lo hi a : Nat} (h : m.inOrder lo hi = true) (ha : a < lo) :
    m.read? a = none := by
  cases m with
  | nil => rfl
  | cons c m =>
    obtain ⟨a', b⟩ := c
    simp only [Memory.inOrder, Bool.and_eq_true, decide_eq_true_eq] at h
    have h1 : a ≠ a' := by omega
    have h2 : a < a' := by omega
    simp [Memory.read?, h1, h2]

/-- A write inside the bounds keeps the canonical form. -/
theorem Memory.inOrder_write {m : Memory} {lo hi a : Nat} (b : Byte) (h : m.inOrder lo hi = true)
    (hl : lo ≤ a) (ha : a < hi) : (m.write a b).inOrder lo hi = true := by
  induction m generalizing lo with
  | nil => simp [Memory.write, Memory.inOrder, hl, ha]
  | cons c m ih =>
    obtain ⟨a', b'⟩ := c
    simp only [Memory.inOrder, Bool.and_eq_true, decide_eq_true_eq] at h
    unfold Memory.write
    split
    · rename_i hlt
      have h3 : Memory.inOrder m (a' + 1) hi = true := h.2
      simp only [Memory.inOrder, Bool.and_eq_true, decide_eq_true_eq]
      exact ⟨⟨hl, ha⟩, ⟨by omega, h.1.2⟩, h3⟩
    · split
      · rename_i heq
        subst heq
        simp only [Memory.inOrder, Bool.and_eq_true, decide_eq_true_eq]
        exact h
      · simp only [Memory.inOrder, Bool.and_eq_true, decide_eq_true_eq]
        exact ⟨h.1, ih h.2 (by omega)⟩

/-- A write below `cap` keeps `Memory.wf`. -/
theorem Memory.wf_write {m : Memory} {cap a : Nat} (b : Byte) (h : m.wf cap = true) (ha : a < cap) :
    (m.write a b).wf cap = true :=
  Memory.inOrder_write b h (Nat.zero_le a) ha

/-- Writing bytes below `cap` keeps `Memory.wf`. -/
theorem Memory.wf_writeBytes {m : Memory} {cap a : Nat} {bs : List Byte} (h : m.wf cap = true)
    (ha : a + bs.length ≤ cap) : (m.writeBytes a bs).wf cap = true := by
  induction bs generalizing m a with
  | nil => exact h
  | cons b bs ih =>
    simp only [List.length_cons] at ha
    exact ih (Memory.wf_write b h (by omega)) (by omega)

/-- The empty memory is canonical. -/
@[simp] theorem Memory.wf_nil (cap : Nat) : Memory.wf [] cap = true := rfl

/-- A written byte reads back. -/
@[simp] theorem Memory.read?_write_same (m : Memory) (a : Nat) (b : Byte) :
    (m.write a b).read? a = some b := by
  induction m with
  | nil => simp [Memory.write, Memory.read?]
  | cons c m ih =>
    obtain ⟨a', b'⟩ := c
    unfold Memory.write
    split
    · simp [Memory.read?]
    · split
      · simp [Memory.read?]
      · rename_i h1 h2
        simp [Memory.read?, h1, h2, ih]

/-- A write leaves every other byte alone. -/
theorem Memory.read?_write_other {m : Memory} {lo hi a k : Nat} (b : Byte)
    (h : m.inOrder lo hi = true) (hk : k ≠ a) : (m.write a b).read? k = m.read? k := by
  induction m generalizing lo with
  | nil => simp [Memory.write, Memory.read?, hk]
  | cons c m ih =>
    obtain ⟨a', b'⟩ := c
    simp only [Memory.inOrder, Bool.and_eq_true, decide_eq_true_eq] at h
    unfold Memory.write
    split
    · rename_i hlt
      by_cases hka : k < a
      · have h1 : k ≠ a' := by omega
        have h2 : k < a' := by omega
        simp [Memory.read?, hk, hka, h1, h2]
      · simp [Memory.read?, hk, hka]
    · split
      · rename_i heq
        subst heq
        by_cases hka : k < a
        · simp [Memory.read?, hk, hka]
        · simp [Memory.read?, hk, hka]
      · by_cases hka : k = a'
        · simp [Memory.read?, hka]
        · simp [Memory.read?, hka, ih h.2]

/-- Writing bytes leaves every byte outside them alone. -/
theorem Memory.read?_writeBytes_other {m : Memory} {cap a k : Nat} {bs : List Byte}
    (h : m.wf cap = true) (ha : a + bs.length ≤ cap) (hk : k < a ∨ a + bs.length ≤ k) :
    (m.writeBytes a bs).read? k = m.read? k := by
  induction bs generalizing m a with
  | nil => rfl
  | cons b bs ih =>
    simp only [List.length_cons] at ha hk
    have h1 := ih (Memory.wf_write b h (by omega : a < cap)) (by omega) (by omega : k < a + 1 ∨ _)
    rw [Memory.writeBytes, h1]
    exact Memory.read?_write_other b h (by omega)

/-- Written bytes read back. -/
theorem Memory.read?_writeBytes_same {m : Memory} {cap a i : Nat} {bs : List Byte}
    (h : m.wf cap = true) (ha : a + bs.length ≤ cap) (hi : i < bs.length) :
    (m.writeBytes a bs).read? (a + i) = bs[i]? := by
  induction bs generalizing m a i with
  | nil => simp at hi
  | cons b bs ih =>
    simp only [List.length_cons] at ha hi
    have hw := Memory.wf_write b h (by omega : a < cap)
    cases i with
    | zero =>
      have h1 := Memory.read?_writeBytes_other (a := a + 1) (bs := bs) (k := a) hw (by omega) (by omega)
      simp [Memory.writeBytes, h1]
    | succ i =>
      have h1 := ih (a := a + 1) (i := i) hw (by omega) (by omega)
      rw [Memory.writeBytes, show a + (i + 1) = a + 1 + i by omega, h1]
      simp

end Sys2Proof.Machine
end

