-- ==== Sys2Proof/Laws/State.lean ====
section
/-! SUPPORT. One lemma per field per named update of the state, so that no proof unfolds an update. -/

namespace Sys2Proof.Machine

/-! ### State.raise -/

@[simp] theorem State.raise_phase (s : State) (e : ErrorKind) : (s.raise e).phase = s.phase := rfl
@[simp] theorem State.raise_upc (s : State) (e : ErrorKind) : (s.raise e).upc = s.upc := rfl
@[simp] theorem State.raise_prog (s : State) (e : ErrorKind) : (s.raise e).prog = s.prog := rfl
@[simp] theorem State.raise_tcodeR (s : State) (e : ErrorKind) :
    (s.raise e).tcodeR =
      s.tcodeR := rfl
@[simp] theorem State.raise_detailR (s : State) (e : ErrorKind) :
    (s.raise e).detailR =
      s.detailR := rfl
@[simp] theorem State.raise_cur (s : State) (e : ErrorKind) : (s.raise e).cur = s.cur := rfl
@[simp] theorem State.raise_dlen (s : State) (e : ErrorKind) : (s.raise e).dlen = s.dlen := rfl
@[simp] theorem State.raise_status (s : State) (e : ErrorKind) :
    (s.raise e).status =
      { s.status with err := true, errCode := if s.status.err then s.status.errCode else e.code } := rfl
@[simp] theorem State.raise_irqEn (s : State) (e : ErrorKind) : (s.raise e).irqEn = s.irqEn := rfl
@[simp] theorem State.raise_bufLen (s : State) (e : ErrorKind) :
    (s.raise e).bufLen =
      s.bufLen := rfl
@[simp] theorem State.raise_orcOff (s : State) (e : ErrorKind) :
    (s.raise e).orcOff =
      s.orcOff := rfl
@[simp] theorem State.raise_matchRes (s : State) (e : ErrorKind) :
    (s.raise e).matchRes =
      s.matchRes := rfl
@[simp] theorem State.raise_msglenRes (s : State) (e : ErrorKind) :
    (s.raise e).msglenRes =
      s.msglenRes := rfl
@[simp] theorem State.raise_summary (s : State) (e : ErrorKind) :
    (s.raise e).summary =
      s.summary := rfl
@[simp] theorem State.raise_sumDestOff (s : State) (e : ErrorKind) :
    (s.raise e).sumDestOff =
      s.sumDestOff := rfl
@[simp] theorem State.raise_fieldCount (s : State) (e : ErrorKind) :
    (s.raise e).fieldCount =
      s.fieldCount := rfl
@[simp] theorem State.raise_fields (s : State) (e : ErrorKind) :
    (s.raise e).fields =
      s.fields := rfl
@[simp] theorem State.raise_cursor (s : State) (e : ErrorKind) :
    (s.raise e).cursor =
      s.cursor := rfl
@[simp] theorem State.raise_dlenRd (s : State) (e : ErrorKind) :
    (s.raise e).dlenRd =
      s.dlenRd := rfl
@[simp] theorem State.raise_block (s : State) (e : ErrorKind) : (s.raise e).block = s.block := rfl
@[simp] theorem State.raise_viewSel (s : State) (e : ErrorKind) :
    (s.raise e).viewSel =
      s.viewSel := rfl
@[simp] theorem State.raise_viewData (s : State) (e : ErrorKind) :
    (s.raise e).viewData =
      s.viewData := rfl
@[simp] theorem State.raise_buf (s : State) (e : ErrorKind) : (s.raise e).buf = s.buf := rfl
@[simp] theorem State.raise_bufCap (s : State) (e : ErrorKind) :
    (s.raise e).bufCap =
      s.bufCap := rfl
@[simp] theorem State.raise_rom (s : State) (e : ErrorKind) : (s.raise e).rom = s.rom := rfl
@[simp] theorem State.raise_agenda (s : State) (e : ErrorKind) :
    (s.raise e).agenda =
      s.agenda := rfl
@[simp] theorem State.raise_response (s : State) (e : ErrorKind) :
    (s.raise e).response =
      s.response := rfl
@[simp] theorem State.raise_draws (s : State) (e : ErrorKind) : (s.raise e).draws = s.draws := rfl

/-! ### State.clearStatus -/

@[simp] theorem State.clearStatus_phase (s : State) (v : Word) :
    (s.clearStatus v).phase =
      s.phase := rfl
@[simp] theorem State.clearStatus_upc (s : State) (v : Word) : (s.clearStatus v).upc = s.upc := rfl
@[simp] theorem State.clearStatus_prog (s : State) (v : Word) :
    (s.clearStatus v).prog =
      s.prog := rfl
@[simp] theorem State.clearStatus_tcodeR (s : State) (v : Word) :
    (s.clearStatus v).tcodeR =
      s.tcodeR := rfl
@[simp] theorem State.clearStatus_detailR (s : State) (v : Word) :
    (s.clearStatus v).detailR =
      s.detailR := rfl
@[simp] theorem State.clearStatus_cur (s : State) (v : Word) : (s.clearStatus v).cur = s.cur := rfl
@[simp] theorem State.clearStatus_dlen (s : State) (v : Word) :
    (s.clearStatus v).dlen =
      s.dlen := rfl
@[simp] theorem State.clearStatus_status (s : State) (v : Word) :
    (s.clearStatus v).status =
      { s.status with
        done := s.status.done && !v.getLsbD 1
        err := s.status.err && !v.getLsbD 2
        errCode := if v.getLsbD 2 then 0#4 else s.status.errCode } := rfl
@[simp] theorem State.clearStatus_irqEn (s : State) (v : Word) :
    (s.clearStatus v).irqEn =
      s.irqEn := rfl
@[simp] theorem State.clearStatus_bufLen (s : State) (v : Word) :
    (s.clearStatus v).bufLen =
      s.bufLen := rfl
@[simp] theorem State.clearStatus_orcOff (s : State) (v : Word) :
    (s.clearStatus v).orcOff =
      s.orcOff := rfl
@[simp] theorem State.clearStatus_matchRes (s : State) (v : Word) :
    (s.clearStatus v).matchRes =
      s.matchRes := rfl
@[simp] theorem State.clearStatus_msglenRes (s : State) (v : Word) :
    (s.clearStatus v).msglenRes =
      s.msglenRes := rfl
@[simp] theorem State.clearStatus_summary (s : State) (v : Word) :
    (s.clearStatus v).summary =
      s.summary := rfl
@[simp] theorem State.clearStatus_sumDestOff (s : State) (v : Word) :
    (s.clearStatus v).sumDestOff =
      s.sumDestOff := rfl
@[simp] theorem State.clearStatus_fieldCount (s : State) (v : Word) :
    (s.clearStatus v).fieldCount =
      s.fieldCount := rfl
@[simp] theorem State.clearStatus_fields (s : State) (v : Word) :
    (s.clearStatus v).fields =
      s.fields := rfl
@[simp] theorem State.clearStatus_cursor (s : State) (v : Word) :
    (s.clearStatus v).cursor =
      s.cursor := rfl
@[simp] theorem State.clearStatus_dlenRd (s : State) (v : Word) :
    (s.clearStatus v).dlenRd =
      s.dlenRd := rfl
@[simp] theorem State.clearStatus_block (s : State) (v : Word) :
    (s.clearStatus v).block =
      s.block := rfl
@[simp] theorem State.clearStatus_viewSel (s : State) (v : Word) :
    (s.clearStatus v).viewSel =
      s.viewSel := rfl
@[simp] theorem State.clearStatus_viewData (s : State) (v : Word) :
    (s.clearStatus v).viewData =
      s.viewData := rfl
@[simp] theorem State.clearStatus_buf (s : State) (v : Word) : (s.clearStatus v).buf = s.buf := rfl
@[simp] theorem State.clearStatus_bufCap (s : State) (v : Word) :
    (s.clearStatus v).bufCap =
      s.bufCap := rfl
@[simp] theorem State.clearStatus_rom (s : State) (v : Word) : (s.clearStatus v).rom = s.rom := rfl
@[simp] theorem State.clearStatus_agenda (s : State) (v : Word) :
    (s.clearStatus v).agenda =
      s.agenda := rfl
@[simp] theorem State.clearStatus_response (s : State) (v : Word) :
    (s.clearStatus v).response =
      s.response := rfl
@[simp] theorem State.clearStatus_draws (s : State) (v : Word) :
    (s.clearStatus v).draws =
      s.draws := rfl

/-! ### State.accept -/

@[simp] theorem State.accept_phase (s : State) (op : Nibble) (p : Phase) :
    (s.accept op p).phase =
      p := rfl
@[simp] theorem State.accept_upc (s : State) (op : Nibble) (p : Phase) :
    (s.accept op p).upc =
      s.upc := rfl
@[simp] theorem State.accept_prog (s : State) (op : Nibble) (p : Phase) :
    (s.accept op p).prog =
      s.prog := rfl
@[simp] theorem State.accept_tcodeR (s : State) (op : Nibble) (p : Phase) :
    (s.accept op p).tcodeR =
      s.tcodeR := rfl
@[simp] theorem State.accept_detailR (s : State) (op : Nibble) (p : Phase) :
    (s.accept op p).detailR =
      s.detailR := rfl
@[simp] theorem State.accept_cur (s : State) (op : Nibble) (p : Phase) :
    (s.accept op p).cur =
      s.cur := rfl
@[simp] theorem State.accept_dlen (s : State) (op : Nibble) (p : Phase) :
    (s.accept op p).dlen =
      s.dlen := rfl
@[simp] theorem State.accept_status (s : State) (op : Nibble) (p : Phase) :
    (s.accept op p).status =
      { s.status with busy := true, done := false, lastOp := op } := rfl
@[simp] theorem State.accept_irqEn (s : State) (op : Nibble) (p : Phase) :
    (s.accept op p).irqEn =
      s.irqEn := rfl
@[simp] theorem State.accept_bufLen (s : State) (op : Nibble) (p : Phase) :
    (s.accept op p).bufLen =
      s.bufLen := rfl
@[simp] theorem State.accept_orcOff (s : State) (op : Nibble) (p : Phase) :
    (s.accept op p).orcOff =
      s.orcOff := rfl
@[simp] theorem State.accept_matchRes (s : State) (op : Nibble) (p : Phase) :
    (s.accept op p).matchRes =
      s.matchRes := rfl
@[simp] theorem State.accept_msglenRes (s : State) (op : Nibble) (p : Phase) :
    (s.accept op p).msglenRes =
      s.msglenRes := rfl
@[simp] theorem State.accept_summary (s : State) (op : Nibble) (p : Phase) :
    (s.accept op p).summary =
      s.summary := rfl
@[simp] theorem State.accept_sumDestOff (s : State) (op : Nibble) (p : Phase) :
    (s.accept op p).sumDestOff =
      s.sumDestOff := rfl
@[simp] theorem State.accept_fieldCount (s : State) (op : Nibble) (p : Phase) :
    (s.accept op p).fieldCount =
      s.fieldCount := rfl
@[simp] theorem State.accept_fields (s : State) (op : Nibble) (p : Phase) :
    (s.accept op p).fields =
      s.fields := rfl
@[simp] theorem State.accept_cursor (s : State) (op : Nibble) (p : Phase) :
    (s.accept op p).cursor =
      s.cursor := rfl
@[simp] theorem State.accept_dlenRd (s : State) (op : Nibble) (p : Phase) :
    (s.accept op p).dlenRd =
      s.dlenRd := rfl
@[simp] theorem State.accept_block (s : State) (op : Nibble) (p : Phase) :
    (s.accept op p).block =
      s.block := rfl
@[simp] theorem State.accept_viewSel (s : State) (op : Nibble) (p : Phase) :
    (s.accept op p).viewSel =
      s.viewSel := rfl
@[simp] theorem State.accept_viewData (s : State) (op : Nibble) (p : Phase) :
    (s.accept op p).viewData =
      s.viewData := rfl
@[simp] theorem State.accept_buf (s : State) (op : Nibble) (p : Phase) :
    (s.accept op p).buf =
      s.buf := rfl
@[simp] theorem State.accept_bufCap (s : State) (op : Nibble) (p : Phase) :
    (s.accept op p).bufCap =
      s.bufCap := rfl
@[simp] theorem State.accept_rom (s : State) (op : Nibble) (p : Phase) :
    (s.accept op p).rom =
      s.rom := rfl
@[simp] theorem State.accept_agenda (s : State) (op : Nibble) (p : Phase) :
    (s.accept op p).agenda =
      s.agenda := rfl
@[simp] theorem State.accept_response (s : State) (op : Nibble) (p : Phase) :
    (s.accept op p).response =
      s.response := rfl
@[simp] theorem State.accept_draws (s : State) (op : Nibble) (p : Phase) :
    (s.accept op p).draws =
      s.draws := rfl

/-! ### State.complete -/

@[simp] theorem State.complete_phase (s : State) : (s.complete).phase = .idle := rfl
@[simp] theorem State.complete_upc (s : State) : (s.complete).upc = s.upc := rfl
@[simp] theorem State.complete_prog (s : State) : (s.complete).prog = s.prog := rfl
@[simp] theorem State.complete_tcodeR (s : State) : (s.complete).tcodeR = s.tcodeR := rfl
@[simp] theorem State.complete_detailR (s : State) : (s.complete).detailR = s.detailR := rfl
@[simp] theorem State.complete_cur (s : State) : (s.complete).cur = s.cur := rfl
@[simp] theorem State.complete_dlen (s : State) : (s.complete).dlen = s.dlen := rfl
@[simp] theorem State.complete_status (s : State) :
    (s.complete).status =
      { s.status with busy := false, done := true } := rfl
@[simp] theorem State.complete_irqEn (s : State) : (s.complete).irqEn = s.irqEn := rfl
@[simp] theorem State.complete_bufLen (s : State) : (s.complete).bufLen = s.bufLen := rfl
@[simp] theorem State.complete_orcOff (s : State) : (s.complete).orcOff = s.orcOff := rfl
@[simp] theorem State.complete_matchRes (s : State) : (s.complete).matchRes = s.matchRes := rfl
@[simp] theorem State.complete_msglenRes (s : State) : (s.complete).msglenRes = s.msglenRes := rfl
@[simp] theorem State.complete_summary (s : State) : (s.complete).summary = s.summary := rfl
@[simp] theorem State.complete_sumDestOff (s : State) :
    (s.complete).sumDestOff =
      s.sumDestOff := rfl
@[simp] theorem State.complete_fieldCount (s : State) :
    (s.complete).fieldCount =
      s.fieldCount := rfl
@[simp] theorem State.complete_fields (s : State) : (s.complete).fields = s.fields := rfl
@[simp] theorem State.complete_cursor (s : State) : (s.complete).cursor = s.cursor := rfl
@[simp] theorem State.complete_dlenRd (s : State) : (s.complete).dlenRd = s.dlenRd := rfl
@[simp] theorem State.complete_block (s : State) : (s.complete).block = s.block := rfl
@[simp] theorem State.complete_viewSel (s : State) : (s.complete).viewSel = s.viewSel := rfl
@[simp] theorem State.complete_viewData (s : State) : (s.complete).viewData = s.viewData := rfl
@[simp] theorem State.complete_buf (s : State) : (s.complete).buf = s.buf := rfl
@[simp] theorem State.complete_bufCap (s : State) : (s.complete).bufCap = s.bufCap := rfl
@[simp] theorem State.complete_rom (s : State) : (s.complete).rom = s.rom := rfl
@[simp] theorem State.complete_agenda (s : State) : (s.complete).agenda = s.agenda := rfl
@[simp] theorem State.complete_response (s : State) : (s.complete).response = s.response := rfl
@[simp] theorem State.complete_draws (s : State) : (s.complete).draws = s.draws := rfl

/-! ### State.initDecode -/

@[simp] theorem State.initDecode_phase (s : State) : (s.initDecode).phase = s.phase := rfl
@[simp] theorem State.initDecode_upc (s : State) : (s.initDecode).upc = 0#3 := rfl
@[simp] theorem State.initDecode_prog (s : State) : (s.initDecode).prog = 0#3 := rfl
@[simp] theorem State.initDecode_tcodeR (s : State) : (s.initDecode).tcodeR = 0#4 := rfl
@[simp] theorem State.initDecode_detailR (s : State) : (s.initDecode).detailR = s.detailR := rfl
@[simp] theorem State.initDecode_cur (s : State) : (s.initDecode).cur = 0#32 := rfl
@[simp] theorem State.initDecode_dlen (s : State) : (s.initDecode).dlen = 0#16 := rfl
@[simp] theorem State.initDecode_status (s : State) : (s.initDecode).status = s.status := rfl
@[simp] theorem State.initDecode_irqEn (s : State) : (s.initDecode).irqEn = s.irqEn := rfl
@[simp] theorem State.initDecode_bufLen (s : State) : (s.initDecode).bufLen = s.bufLen := rfl
@[simp] theorem State.initDecode_orcOff (s : State) : (s.initDecode).orcOff = s.orcOff := rfl
@[simp] theorem State.initDecode_matchRes (s : State) : (s.initDecode).matchRes = s.matchRes := rfl
@[simp] theorem State.initDecode_msglenRes (s : State) :
    (s.initDecode).msglenRes =
      s.msglenRes := rfl
@[simp] theorem State.initDecode_summary (s : State) : (s.initDecode).summary = .zero := rfl
@[simp] theorem State.initDecode_sumDestOff (s : State) : (s.initDecode).sumDestOff = 0#32 := rfl
@[simp] theorem State.initDecode_fieldCount (s : State) : (s.initDecode).fieldCount = 0#4 := rfl
@[simp] theorem State.initDecode_fields (s : State) :
    (s.initDecode).fields =
      Vector.replicate 8 FieldRec.zero := rfl
@[simp] theorem State.initDecode_cursor (s : State) : (s.initDecode).cursor = s.cursor := rfl
@[simp] theorem State.initDecode_dlenRd (s : State) : (s.initDecode).dlenRd = s.dlenRd := rfl
@[simp] theorem State.initDecode_block (s : State) : (s.initDecode).block = .zero := rfl
@[simp] theorem State.initDecode_viewSel (s : State) : (s.initDecode).viewSel = s.viewSel := rfl
@[simp] theorem State.initDecode_viewData (s : State) : (s.initDecode).viewData = 0#32 := rfl
@[simp] theorem State.initDecode_buf (s : State) : (s.initDecode).buf = s.buf := rfl
@[simp] theorem State.initDecode_bufCap (s : State) : (s.initDecode).bufCap = s.bufCap := rfl
@[simp] theorem State.initDecode_rom (s : State) : (s.initDecode).rom = s.rom := rfl
@[simp] theorem State.initDecode_agenda (s : State) : (s.initDecode).agenda = s.agenda := rfl
@[simp] theorem State.initDecode_response (s : State) : (s.initDecode).response = s.response := rfl
@[simp] theorem State.initDecode_draws (s : State) : (s.initDecode).draws = s.draws := rfl

/-! ### State.invalidateBlock -/

@[simp] theorem State.invalidateBlock_phase (s : State) : (s.invalidateBlock).phase = s.phase := rfl
@[simp] theorem State.invalidateBlock_upc (s : State) : (s.invalidateBlock).upc = s.upc := rfl
@[simp] theorem State.invalidateBlock_prog (s : State) : (s.invalidateBlock).prog = s.prog := rfl
@[simp] theorem State.invalidateBlock_tcodeR (s : State) :
    (s.invalidateBlock).tcodeR =
      s.tcodeR := rfl
@[simp] theorem State.invalidateBlock_detailR (s : State) :
    (s.invalidateBlock).detailR =
      s.detailR := rfl
@[simp] theorem State.invalidateBlock_cur (s : State) : (s.invalidateBlock).cur = s.cur := rfl
@[simp] theorem State.invalidateBlock_dlen (s : State) : (s.invalidateBlock).dlen = s.dlen := rfl
@[simp] theorem State.invalidateBlock_status (s : State) :
    (s.invalidateBlock).status =
      s.status := rfl
@[simp] theorem State.invalidateBlock_irqEn (s : State) : (s.invalidateBlock).irqEn = s.irqEn := rfl
@[simp] theorem State.invalidateBlock_bufLen (s : State) :
    (s.invalidateBlock).bufLen =
      s.bufLen := rfl
@[simp] theorem State.invalidateBlock_orcOff (s : State) :
    (s.invalidateBlock).orcOff =
      s.orcOff := rfl
@[simp] theorem State.invalidateBlock_matchRes (s : State) :
    (s.invalidateBlock).matchRes =
      s.matchRes := rfl
@[simp] theorem State.invalidateBlock_msglenRes (s : State) :
    (s.invalidateBlock).msglenRes =
      s.msglenRes := rfl
@[simp] theorem State.invalidateBlock_summary (s : State) :
    (s.invalidateBlock).summary =
      s.summary := rfl
@[simp] theorem State.invalidateBlock_sumDestOff (s : State) :
    (s.invalidateBlock).sumDestOff =
      s.sumDestOff := rfl
@[simp] theorem State.invalidateBlock_fieldCount (s : State) :
    (s.invalidateBlock).fieldCount =
      s.fieldCount := rfl
@[simp] theorem State.invalidateBlock_fields (s : State) :
    (s.invalidateBlock).fields =
      s.fields := rfl
@[simp] theorem State.invalidateBlock_cursor (s : State) :
    (s.invalidateBlock).cursor =
      s.cursor := rfl
@[simp] theorem State.invalidateBlock_dlenRd (s : State) :
    (s.invalidateBlock).dlenRd =
      s.dlenRd := rfl
@[simp] theorem State.invalidateBlock_block (s : State) :
    (s.invalidateBlock).block =
      { s.block with valid := false } := rfl
@[simp] theorem State.invalidateBlock_viewSel (s : State) :
    (s.invalidateBlock).viewSel =
      s.viewSel := rfl
@[simp] theorem State.invalidateBlock_viewData (s : State) :
    (s.invalidateBlock).viewData =
      s.viewData := rfl
@[simp] theorem State.invalidateBlock_buf (s : State) : (s.invalidateBlock).buf = s.buf := rfl
@[simp] theorem State.invalidateBlock_bufCap (s : State) :
    (s.invalidateBlock).bufCap =
      s.bufCap := rfl
@[simp] theorem State.invalidateBlock_rom (s : State) : (s.invalidateBlock).rom = s.rom := rfl
@[simp] theorem State.invalidateBlock_agenda (s : State) :
    (s.invalidateBlock).agenda =
      s.agenda := rfl
@[simp] theorem State.invalidateBlock_response (s : State) :
    (s.invalidateBlock).response =
      s.response := rfl
@[simp] theorem State.invalidateBlock_draws (s : State) : (s.invalidateBlock).draws = s.draws := rfl

/-! ### State.respond -/

@[simp] theorem State.respond_phase (s : State) (r : Response) :
    (s.respond r).phase =
      s.phase := rfl
@[simp] theorem State.respond_upc (s : State) (r : Response) : (s.respond r).upc = s.upc := rfl
@[simp] theorem State.respond_prog (s : State) (r : Response) : (s.respond r).prog = s.prog := rfl
@[simp] theorem State.respond_tcodeR (s : State) (r : Response) :
    (s.respond r).tcodeR =
      s.tcodeR := rfl
@[simp] theorem State.respond_detailR (s : State) (r : Response) :
    (s.respond r).detailR =
      s.detailR := rfl
@[simp] theorem State.respond_cur (s : State) (r : Response) : (s.respond r).cur = s.cur := rfl
@[simp] theorem State.respond_dlen (s : State) (r : Response) : (s.respond r).dlen = s.dlen := rfl
@[simp] theorem State.respond_status (s : State) (r : Response) :
    (s.respond r).status =
      s.status := rfl
@[simp] theorem State.respond_irqEn (s : State) (r : Response) :
    (s.respond r).irqEn =
      s.irqEn := rfl
@[simp] theorem State.respond_bufLen (s : State) (r : Response) :
    (s.respond r).bufLen =
      s.bufLen := rfl
@[simp] theorem State.respond_orcOff (s : State) (r : Response) :
    (s.respond r).orcOff =
      s.orcOff := rfl
@[simp] theorem State.respond_matchRes (s : State) (r : Response) :
    (s.respond r).matchRes =
      s.matchRes := rfl
@[simp] theorem State.respond_msglenRes (s : State) (r : Response) :
    (s.respond r).msglenRes =
      s.msglenRes := rfl
@[simp] theorem State.respond_summary (s : State) (r : Response) :
    (s.respond r).summary =
      s.summary := rfl
@[simp] theorem State.respond_sumDestOff (s : State) (r : Response) :
    (s.respond r).sumDestOff =
      s.sumDestOff := rfl
@[simp] theorem State.respond_fieldCount (s : State) (r : Response) :
    (s.respond r).fieldCount =
      s.fieldCount := rfl
@[simp] theorem State.respond_fields (s : State) (r : Response) :
    (s.respond r).fields =
      s.fields := rfl
@[simp] theorem State.respond_cursor (s : State) (r : Response) :
    (s.respond r).cursor =
      s.cursor := rfl
@[simp] theorem State.respond_dlenRd (s : State) (r : Response) :
    (s.respond r).dlenRd =
      s.dlenRd := rfl
@[simp] theorem State.respond_block (s : State) (r : Response) :
    (s.respond r).block =
      s.block := rfl
@[simp] theorem State.respond_viewSel (s : State) (r : Response) :
    (s.respond r).viewSel =
      s.viewSel := rfl
@[simp] theorem State.respond_viewData (s : State) (r : Response) :
    (s.respond r).viewData =
      s.viewData := rfl
@[simp] theorem State.respond_buf (s : State) (r : Response) : (s.respond r).buf = s.buf := rfl
@[simp] theorem State.respond_bufCap (s : State) (r : Response) :
    (s.respond r).bufCap =
      s.bufCap := rfl
@[simp] theorem State.respond_rom (s : State) (r : Response) : (s.respond r).rom = s.rom := rfl
@[simp] theorem State.respond_agenda (s : State) (r : Response) :
    (s.respond r).agenda =
      s.agenda := rfl
@[simp] theorem State.respond_response (s : State) (r : Response) :
    (s.respond r).response =
      some r := rfl
@[simp] theorem State.respond_draws (s : State) (r : Response) :
    (s.respond r).draws =
      s.draws := rfl

/-! ### State.advance -/

@[simp] theorem State.advance_phase (s : State) (n : Nat) : (s.advance n).phase = s.phase := rfl
@[simp] theorem State.advance_upc (s : State) (n : Nat) : (s.advance n).upc = s.upc := rfl
@[simp] theorem State.advance_prog (s : State) (n : Nat) : (s.advance n).prog = s.prog := rfl
@[simp] theorem State.advance_tcodeR (s : State) (n : Nat) : (s.advance n).tcodeR = s.tcodeR := rfl
@[simp] theorem State.advance_detailR (s : State) (n : Nat) :
    (s.advance n).detailR =
      s.detailR := rfl
@[simp] theorem State.advance_cur (s : State) (n : Nat) :
    (s.advance n).cur =
      s.cur + BitVec.ofNat 32 n := rfl
@[simp] theorem State.advance_dlen (s : State) (n : Nat) : (s.advance n).dlen = s.dlen := rfl
@[simp] theorem State.advance_status (s : State) (n : Nat) : (s.advance n).status = s.status := rfl
@[simp] theorem State.advance_irqEn (s : State) (n : Nat) : (s.advance n).irqEn = s.irqEn := rfl
@[simp] theorem State.advance_bufLen (s : State) (n : Nat) : (s.advance n).bufLen = s.bufLen := rfl
@[simp] theorem State.advance_orcOff (s : State) (n : Nat) : (s.advance n).orcOff = s.orcOff := rfl
@[simp] theorem State.advance_matchRes (s : State) (n : Nat) :
    (s.advance n).matchRes =
      s.matchRes := rfl
@[simp] theorem State.advance_msglenRes (s : State) (n : Nat) :
    (s.advance n).msglenRes =
      s.msglenRes := rfl
@[simp] theorem State.advance_summary (s : State) (n : Nat) :
    (s.advance n).summary =
      s.summary := rfl
@[simp] theorem State.advance_sumDestOff (s : State) (n : Nat) :
    (s.advance n).sumDestOff =
      s.sumDestOff := rfl
@[simp] theorem State.advance_fieldCount (s : State) (n : Nat) :
    (s.advance n).fieldCount =
      s.fieldCount := rfl
@[simp] theorem State.advance_fields (s : State) (n : Nat) : (s.advance n).fields = s.fields := rfl
@[simp] theorem State.advance_cursor (s : State) (n : Nat) : (s.advance n).cursor = s.cursor := rfl
@[simp] theorem State.advance_dlenRd (s : State) (n : Nat) : (s.advance n).dlenRd = s.dlenRd := rfl
@[simp] theorem State.advance_block (s : State) (n : Nat) : (s.advance n).block = s.block := rfl
@[simp] theorem State.advance_viewSel (s : State) (n : Nat) :
    (s.advance n).viewSel =
      s.viewSel := rfl
@[simp] theorem State.advance_viewData (s : State) (n : Nat) :
    (s.advance n).viewData =
      s.viewData := rfl
@[simp] theorem State.advance_buf (s : State) (n : Nat) : (s.advance n).buf = s.buf := rfl
@[simp] theorem State.advance_bufCap (s : State) (n : Nat) : (s.advance n).bufCap = s.bufCap := rfl
@[simp] theorem State.advance_rom (s : State) (n : Nat) : (s.advance n).rom = s.rom := rfl
@[simp] theorem State.advance_agenda (s : State) (n : Nat) : (s.advance n).agenda = s.agenda := rfl
@[simp] theorem State.advance_response (s : State) (n : Nat) :
    (s.advance n).response =
      s.response := rfl
@[simp] theorem State.advance_draws (s : State) (n : Nat) : (s.advance n).draws = s.draws := rfl

/-! ### State.dispatch -/

@[simp] theorem State.dispatch_phase (s : State) (t : Nibble) : (s.dispatch t).phase = .body := rfl
@[simp] theorem State.dispatch_upc (s : State) (t : Nibble) : (s.dispatch t).upc = 0#3 := rfl
@[simp] theorem State.dispatch_prog (s : State) (t : Nibble) :
    (s.dispatch t).prog =
      progSel t := rfl
@[simp] theorem State.dispatch_tcodeR (s : State) (t : Nibble) :
    (s.dispatch t).tcodeR =
      s.tcodeR := rfl
@[simp] theorem State.dispatch_detailR (s : State) (t : Nibble) :
    (s.dispatch t).detailR =
      s.detailR := rfl
@[simp] theorem State.dispatch_cur (s : State) (t : Nibble) : (s.dispatch t).cur = s.cur := rfl
@[simp] theorem State.dispatch_dlen (s : State) (t : Nibble) : (s.dispatch t).dlen = s.dlen := rfl
@[simp] theorem State.dispatch_status (s : State) (t : Nibble) :
    (s.dispatch t).status =
      s.status := rfl
@[simp] theorem State.dispatch_irqEn (s : State) (t : Nibble) :
    (s.dispatch t).irqEn =
      s.irqEn := rfl
@[simp] theorem State.dispatch_bufLen (s : State) (t : Nibble) :
    (s.dispatch t).bufLen =
      s.bufLen := rfl
@[simp] theorem State.dispatch_orcOff (s : State) (t : Nibble) :
    (s.dispatch t).orcOff =
      s.orcOff := rfl
@[simp] theorem State.dispatch_matchRes (s : State) (t : Nibble) :
    (s.dispatch t).matchRes =
      s.matchRes := rfl
@[simp] theorem State.dispatch_msglenRes (s : State) (t : Nibble) :
    (s.dispatch t).msglenRes =
      s.msglenRes := rfl
@[simp] theorem State.dispatch_summary (s : State) (t : Nibble) :
    (s.dispatch t).summary =
      s.summary.ofTcode t := rfl
@[simp] theorem State.dispatch_sumDestOff (s : State) (t : Nibble) :
    (s.dispatch t).sumDestOff =
      s.sumDestOff := rfl
@[simp] theorem State.dispatch_fieldCount (s : State) (t : Nibble) :
    (s.dispatch t).fieldCount =
      s.fieldCount := rfl
@[simp] theorem State.dispatch_fields (s : State) (t : Nibble) :
    (s.dispatch t).fields =
      s.fields := rfl
@[simp] theorem State.dispatch_cursor (s : State) (t : Nibble) :
    (s.dispatch t).cursor =
      s.cursor := rfl
@[simp] theorem State.dispatch_dlenRd (s : State) (t : Nibble) :
    (s.dispatch t).dlenRd =
      s.dlenRd := rfl
@[simp] theorem State.dispatch_block (s : State) (t : Nibble) :
    (s.dispatch t).block =
      s.block := rfl
@[simp] theorem State.dispatch_viewSel (s : State) (t : Nibble) :
    (s.dispatch t).viewSel =
      s.viewSel := rfl
@[simp] theorem State.dispatch_viewData (s : State) (t : Nibble) :
    (s.dispatch t).viewData =
      s.viewData := rfl
@[simp] theorem State.dispatch_buf (s : State) (t : Nibble) : (s.dispatch t).buf = s.buf := rfl
@[simp] theorem State.dispatch_bufCap (s : State) (t : Nibble) :
    (s.dispatch t).bufCap =
      s.bufCap := rfl
@[simp] theorem State.dispatch_rom (s : State) (t : Nibble) : (s.dispatch t).rom = s.rom := rfl
@[simp] theorem State.dispatch_agenda (s : State) (t : Nibble) :
    (s.dispatch t).agenda =
      s.agenda := rfl
@[simp] theorem State.dispatch_response (s : State) (t : Nibble) :
    (s.dispatch t).response =
      s.response := rfl
@[simp] theorem State.dispatch_draws (s : State) (t : Nibble) :
    (s.dispatch t).draws =
      s.draws := rfl

/-! ### State.setMsglen -/

@[simp] theorem State.setMsglen_phase (s : State) (n : Nat) : (s.setMsglen n).phase = .finish := rfl
@[simp] theorem State.setMsglen_upc (s : State) (n : Nat) : (s.setMsglen n).upc = s.upc := rfl
@[simp] theorem State.setMsglen_prog (s : State) (n : Nat) : (s.setMsglen n).prog = s.prog := rfl
@[simp] theorem State.setMsglen_tcodeR (s : State) (n : Nat) :
    (s.setMsglen n).tcodeR =
      s.tcodeR := rfl
@[simp] theorem State.setMsglen_detailR (s : State) (n : Nat) :
    (s.setMsglen n).detailR =
      s.detailR := rfl
@[simp] theorem State.setMsglen_cur (s : State) (n : Nat) : (s.setMsglen n).cur = s.cur := rfl
@[simp] theorem State.setMsglen_dlen (s : State) (n : Nat) : (s.setMsglen n).dlen = s.dlen := rfl
@[simp] theorem State.setMsglen_status (s : State) (n : Nat) :
    (s.setMsglen n).status =
      s.status := rfl
@[simp] theorem State.setMsglen_irqEn (s : State) (n : Nat) : (s.setMsglen n).irqEn = s.irqEn := rfl
@[simp] theorem State.setMsglen_bufLen (s : State) (n : Nat) :
    (s.setMsglen n).bufLen =
      s.bufLen := rfl
@[simp] theorem State.setMsglen_orcOff (s : State) (n : Nat) :
    (s.setMsglen n).orcOff =
      s.orcOff := rfl
@[simp] theorem State.setMsglen_matchRes (s : State) (n : Nat) :
    (s.setMsglen n).matchRes =
      s.matchRes := rfl
@[simp] theorem State.setMsglen_msglenRes (s : State) (n : Nat) :
    (s.setMsglen n).msglenRes =
      BitVec.ofNat 32 n := rfl
@[simp] theorem State.setMsglen_summary (s : State) (n : Nat) :
    (s.setMsglen n).summary =
      s.summary := rfl
@[simp] theorem State.setMsglen_sumDestOff (s : State) (n : Nat) :
    (s.setMsglen n).sumDestOff =
      s.sumDestOff := rfl
@[simp] theorem State.setMsglen_fieldCount (s : State) (n : Nat) :
    (s.setMsglen n).fieldCount =
      s.fieldCount := rfl
@[simp] theorem State.setMsglen_fields (s : State) (n : Nat) :
    (s.setMsglen n).fields =
      s.fields := rfl
@[simp] theorem State.setMsglen_cursor (s : State) (n : Nat) :
    (s.setMsglen n).cursor =
      s.cursor := rfl
@[simp] theorem State.setMsglen_dlenRd (s : State) (n : Nat) :
    (s.setMsglen n).dlenRd =
      s.dlenRd := rfl
@[simp] theorem State.setMsglen_block (s : State) (n : Nat) : (s.setMsglen n).block = s.block := rfl
@[simp] theorem State.setMsglen_viewSel (s : State) (n : Nat) :
    (s.setMsglen n).viewSel =
      s.viewSel := rfl
@[simp] theorem State.setMsglen_viewData (s : State) (n : Nat) :
    (s.setMsglen n).viewData =
      s.viewData := rfl
@[simp] theorem State.setMsglen_buf (s : State) (n : Nat) : (s.setMsglen n).buf = s.buf := rfl
@[simp] theorem State.setMsglen_bufCap (s : State) (n : Nat) :
    (s.setMsglen n).bufCap =
      s.bufCap := rfl
@[simp] theorem State.setMsglen_rom (s : State) (n : Nat) : (s.setMsglen n).rom = s.rom := rfl
@[simp] theorem State.setMsglen_agenda (s : State) (n : Nat) :
    (s.setMsglen n).agenda =
      s.agenda := rfl
@[simp] theorem State.setMsglen_response (s : State) (n : Nat) :
    (s.setMsglen n).response =
      s.response := rfl
@[simp] theorem State.setMsglen_draws (s : State) (n : Nat) : (s.setMsglen n).draws = s.draws := rfl

/-! ### State.afterReset -/

@[simp] theorem State.afterReset_phase (s : State) : (s.afterReset).phase = State.reset.phase := rfl
@[simp] theorem State.afterReset_upc (s : State) : (s.afterReset).upc = State.reset.upc := rfl
@[simp] theorem State.afterReset_prog (s : State) : (s.afterReset).prog = State.reset.prog := rfl
@[simp] theorem State.afterReset_tcodeR (s : State) :
    (s.afterReset).tcodeR =
      State.reset.tcodeR := rfl
@[simp] theorem State.afterReset_detailR (s : State) :
    (s.afterReset).detailR =
      State.reset.detailR := rfl
@[simp] theorem State.afterReset_cur (s : State) : (s.afterReset).cur = State.reset.cur := rfl
@[simp] theorem State.afterReset_dlen (s : State) : (s.afterReset).dlen = State.reset.dlen := rfl
@[simp] theorem State.afterReset_status (s : State) :
    (s.afterReset).status =
      State.reset.status := rfl
@[simp] theorem State.afterReset_irqEn (s : State) : (s.afterReset).irqEn = State.reset.irqEn := rfl
@[simp] theorem State.afterReset_bufLen (s : State) :
    (s.afterReset).bufLen =
      State.reset.bufLen := rfl
@[simp] theorem State.afterReset_orcOff (s : State) :
    (s.afterReset).orcOff =
      State.reset.orcOff := rfl
@[simp] theorem State.afterReset_matchRes (s : State) :
    (s.afterReset).matchRes =
      State.reset.matchRes := rfl
@[simp] theorem State.afterReset_msglenRes (s : State) :
    (s.afterReset).msglenRes =
      State.reset.msglenRes := rfl
@[simp] theorem State.afterReset_summary (s : State) :
    (s.afterReset).summary =
      State.reset.summary := rfl
@[simp] theorem State.afterReset_sumDestOff (s : State) :
    (s.afterReset).sumDestOff =
      State.reset.sumDestOff := rfl
@[simp] theorem State.afterReset_fieldCount (s : State) :
    (s.afterReset).fieldCount =
      State.reset.fieldCount := rfl
@[simp] theorem State.afterReset_fields (s : State) :
    (s.afterReset).fields =
      State.reset.fields := rfl
@[simp] theorem State.afterReset_cursor (s : State) :
    (s.afterReset).cursor =
      State.reset.cursor := rfl
@[simp] theorem State.afterReset_dlenRd (s : State) :
    (s.afterReset).dlenRd =
      State.reset.dlenRd := rfl
@[simp] theorem State.afterReset_block (s : State) : (s.afterReset).block = State.reset.block := rfl
@[simp] theorem State.afterReset_viewSel (s : State) :
    (s.afterReset).viewSel =
      State.reset.viewSel := rfl
@[simp] theorem State.afterReset_viewData (s : State) :
    (s.afterReset).viewData =
      State.reset.viewData := rfl
@[simp] theorem State.afterReset_buf (s : State) : (s.afterReset).buf = State.reset.buf := rfl
@[simp] theorem State.afterReset_bufCap (s : State) : (s.afterReset).bufCap = s.bufCap := rfl
@[simp] theorem State.afterReset_rom (s : State) : (s.afterReset).rom = s.rom := rfl
@[simp] theorem State.afterReset_agenda (s : State) : (s.afterReset).agenda = s.agenda := rfl
@[simp] theorem State.afterReset_response (s : State) :
    (s.afterReset).response =
      State.reset.response := rfl
@[simp] theorem State.afterReset_draws (s : State) : (s.afterReset).draws = s.draws := rfl

/-! ### State.emit -/

@[simp] theorem State.emit_phase (s : State) (k : Nibble) (a n v : Word) :
    (s.emit k a n v).phase =
      s.phase := rfl
@[simp] theorem State.emit_upc (s : State) (k : Nibble) (a n v : Word) :
    (s.emit k a n v).upc =
      s.upc := rfl
@[simp] theorem State.emit_prog (s : State) (k : Nibble) (a n v : Word) :
    (s.emit k a n v).prog =
      s.prog := rfl
@[simp] theorem State.emit_tcodeR (s : State) (k : Nibble) (a n v : Word) :
    (s.emit k a n v).tcodeR =
      s.tcodeR := rfl
@[simp] theorem State.emit_detailR (s : State) (k : Nibble) (a n v : Word) :
    (s.emit k a n v).detailR =
      s.detailR := rfl
@[simp] theorem State.emit_cur (s : State) (k : Nibble) (a n v : Word) :
    (s.emit k a n v).cur =
      s.cur := rfl
@[simp] theorem State.emit_dlen (s : State) (k : Nibble) (a n v : Word) :
    (s.emit k a n v).dlen =
      s.dlen := rfl
@[simp] theorem State.emit_status (s : State) (k : Nibble) (a n v : Word) :
    (s.emit k a n v).status =
      s.status := rfl
@[simp] theorem State.emit_irqEn (s : State) (k : Nibble) (a n v : Word) :
    (s.emit k a n v).irqEn =
      s.irqEn := rfl
@[simp] theorem State.emit_bufLen (s : State) (k : Nibble) (a n v : Word) :
    (s.emit k a n v).bufLen =
      s.bufLen := rfl
@[simp] theorem State.emit_orcOff (s : State) (k : Nibble) (a n v : Word) :
    (s.emit k a n v).orcOff =
      s.orcOff := rfl
@[simp] theorem State.emit_matchRes (s : State) (k : Nibble) (a n v : Word) :
    (s.emit k a n v).matchRes =
      s.matchRes := rfl
@[simp] theorem State.emit_msglenRes (s : State) (k : Nibble) (a n v : Word) :
    (s.emit k a n v).msglenRes =
      s.msglenRes := rfl
@[simp] theorem State.emit_summary (s : State) (k : Nibble) (a n v : Word) :
    (s.emit k a n v).summary =
      s.summary := rfl
@[simp] theorem State.emit_sumDestOff (s : State) (k : Nibble) (a n v : Word) :
    (s.emit k a n v).sumDestOff =
      s.sumDestOff := rfl
@[simp] theorem State.emit_fieldCount (s : State) (k : Nibble) (a n v : Word) :
    (s.emit k a n v).fieldCount =
      if s.detailR then s.fieldCount + 1#4 else s.fieldCount := rfl
@[simp] theorem State.emit_fields (s : State) (k : Nibble) (a n v : Word) :
    (s.emit k a n v).fields =
      if s.detailR then s.fields.setIfInBounds s.fieldCount.toNat ⟨k, a, n, v⟩ else s.fields := rfl
@[simp] theorem State.emit_cursor (s : State) (k : Nibble) (a n v : Word) :
    (s.emit k a n v).cursor =
      s.cursor := rfl
@[simp] theorem State.emit_dlenRd (s : State) (k : Nibble) (a n v : Word) :
    (s.emit k a n v).dlenRd =
      s.dlenRd := rfl
@[simp] theorem State.emit_block (s : State) (k : Nibble) (a n v : Word) :
    (s.emit k a n v).block =
      s.block := rfl
@[simp] theorem State.emit_viewSel (s : State) (k : Nibble) (a n v : Word) :
    (s.emit k a n v).viewSel =
      s.viewSel := rfl
@[simp] theorem State.emit_viewData (s : State) (k : Nibble) (a n v : Word) :
    (s.emit k a n v).viewData =
      s.viewData := rfl
@[simp] theorem State.emit_buf (s : State) (k : Nibble) (a n v : Word) :
    (s.emit k a n v).buf =
      s.buf := rfl
@[simp] theorem State.emit_bufCap (s : State) (k : Nibble) (a n v : Word) :
    (s.emit k a n v).bufCap =
      s.bufCap := rfl
@[simp] theorem State.emit_rom (s : State) (k : Nibble) (a n v : Word) :
    (s.emit k a n v).rom =
      s.rom := rfl
@[simp] theorem State.emit_agenda (s : State) (k : Nibble) (a n v : Word) :
    (s.emit k a n v).agenda =
      s.agenda := rfl
@[simp] theorem State.emit_response (s : State) (k : Nibble) (a n v : Word) :
    (s.emit k a n v).response =
      s.response := rfl
@[simp] theorem State.emit_draws (s : State) (k : Nibble) (a n v : Word) :
    (s.emit k a n v).draws =
      s.draws := rfl

end Sys2Proof.Machine
end

