-- ==== Sys2Proof/Laws/Ops.lean ====
section
/-! SUPPORT. For each shared operation, once, everything it can do. -/

namespace Sys2Proof.Machine

/-! ### Outcomes -/

@[simp] theorem withRead_ok {α : Type} (v : α) (k : α → Res State) : withRead (.ok v) k = k v := rfl

@[simp] theorem withRead_error {α : Type} (f : Fault) (k : α → Res State) :
    withRead (.error f) k = .fault f := rfl

/-- A read that goes on gave a value. -/
theorem withRead_next {α : Type} {r : Except Fault α} {k : α → Res State} {t : State}
    (h : withRead r k = .next t) : ∃ v, r = .ok v ∧ k v = .next t := by
  cases r with
  | ok v => exact ⟨v, rfl, h⟩
  | error f => cases h

@[simp] theorem andThen_next (s : State) (k : State → Res State) : andThen (.next s) k = k s := rfl

@[simp] theorem andThen_fault (f : Fault) (k : State → Res State) :
    andThen (.fault f) k = .fault f := rfl

@[simp] theorem andThen_refused (r : Refusal) (k : State → Res State) :
    andThen (.refused r) k = .refused r := rfl

/-- A sequence that ends in a next state went through one. -/
theorem andThen_eq_next {r : Res State} {k : State → Res State} {t : State}
    (h : andThen r k = .next t) : ∃ u, r = .next u ∧ k u = .next t := by
  cases r with
  | next u => exact ⟨u, rfl, h⟩
  | fault f => cases h
  | refused f => cases h

/-! ### MemRead -/

/-- MemRead(a, 1) gives the byte, or faults where there is none. -/
theorem State.memRead1_eq_ok {s : State} {a : Nat} {b : Byte} :
    s.memRead1 a = .ok b ↔ s.buf.read? a = some b := by
  unfold State.memRead1
  cases s.buf.read? a <;> simp

/-- MemRead(a, 2) is two bytes, the first the more significant. -/
theorem State.memRead2_eq_ok {s : State} {a : Nat} {v : Half} :
    s.memRead2 a = .ok v ↔
      ∃ b0 b1 : Byte, s.buf.read? a = some b0 ∧ s.buf.read? (a + 1) = some b1 ∧ v = b0 ++ b1 := by
  unfold State.memRead2 State.memRead1
  cases s.buf.read? a <;> cases s.buf.read? (a + 1) <;> simp [eq_comm]

/-- MemRead(a, 4) is two halves, the first the more significant. -/
theorem State.memRead4_eq_ok {s : State} {a : Nat} {v : Word} :
    s.memRead4 a = .ok v ↔
      ∃ h0 h1 : Half, s.memRead2 a = .ok h0 ∧ s.memRead2 (a + 2) = .ok h1 ∧ v = h0 ++ h1 := by
  unfold State.memRead4
  cases s.memRead2 a <;> cases s.memRead2 (a + 2) <;> simp [eq_comm]

/-- A failed read is a byte without a value. -/
theorem State.memRead1_error {s : State} {a : Nat} {f : Fault} (h : s.memRead1 a = .error f) :
    s.buf.read? a = none ∧ f = .unwrittenByte a := by
  unfold State.memRead1 at h
  cases hb : s.buf.read? a <;> simp_all

/-- The tcode of the header word is the tcode of byte 3 (R111, R114). -/
theorem State.tcode_of_header {s : State} {w : Word} {b : Byte} (hw : s.memRead4 0 = .ok w)
    (hb : s.memRead1 3 = .ok b) : w.extractLsb' 4 4 = tcodeOf b := by
  obtain ⟨h0, h1, _, e1, rfl⟩ := State.memRead4_eq_ok.1 hw
  obtain ⟨x, y, _, ey, rfl⟩ := State.memRead2_eq_ok.1 e1
  rw [State.memRead1_eq_ok] at hb
  have hy : b = y := by simpa [hb] using ey
  subst hy
  apply BitVec.eq_of_getLsbD_eq
  intro i hi
  rw [BitVec.getLsbD_extractLsb', BitVec.getLsbD_append, if_pos (by omega), BitVec.getLsbD_append,
    if_pos (by omega), tcodeOf, BitVec.getLsbD_extractLsb']

/-! ### Commands, errors, the busy rule -/

/-- A `CMD` word that decodes is one of the four commands. -/
theorem decode_cmd_cases {w : Word} {i : Instr} (h : decode (.cmd w) = .ok i) :
    i = .matchSig ∨ i = .msglen ∨ i = .decode ∨ i = .decodeS := by
  simp only [decode, decodeCommand] at h
  split at h <;> simp at h <;> (try split at h) <;> simp_all


/-- A command is dropped with E_BUSY, or starts. -/
theorem State.command_eq_next {s t : State} {start : State → State}
    (h : s.command start = .next t) :
    (s.status.busy = true ∧ t = s.raise .busy) ∨ (s.status.busy = false ∧ t = start s) := by
  unfold State.command at h
  cases hb : s.status.busy <;> simp_all

/-- A write under the busy rule is dropped with E_BUSY, or has its effect. -/
theorem State.whenIdle_eq_next {s t : State} {r : Res State} (h : s.whenIdle r = .next t) :
    (s.status.busy = true ∧ t = s.raise .busy) ∨ (s.status.busy = false ∧ r = .next t) := by
  unfold State.whenIdle at h
  cases hb : s.status.busy <;> simp_all

@[simp] theorem State.emit_of_summaryOnly {s : State} (h : s.detailR = false) (k : Nibble)
    (a n v : Word) : s.emit k a n v = s := by
  unfold State.emit
  rw [h, if_neg Bool.false_ne_true, if_neg Bool.false_ne_true]
  cases s
  cases h
  rfl

/-- Emit with detail fills one slot and counts it. -/
theorem State.emit_of_detail {s : State} (h : s.detailR = true) (k : Nibble) (a n v : Word) :
    s.emit k a n v = { s with
      fields := s.fields.setIfInBounds s.fieldCount.toNat ⟨k, a, n, v⟩
      fieldCount := s.fieldCount + 1#4 } := by
  simp [State.emit, h]

/-- The dispatch of a destination variant reads the address, or faults. -/
theorem State.dispatchDest_eq_next {s u : State} {t : Nibble} (h : s.dispatchDest t = .next u) :
    ∃ a, s.memRead4 8 = .ok a ∧ u = { s.dispatch t with sumDestOff := a } := by
  obtain ⟨a, ha, hk⟩ := withRead_next h
  exact ⟨a, ha, by cases hk; rfl⟩

/-! ### Fetching and the engine -/

/-- A fetched micro-op is the word of the ROM at PROG and UPC. -/
theorem fetchMicroOp_eq_ok {s : State} {b : Byte} :
    fetchMicroOp s = .ok b ↔
      ∃ p, s.rom[s.prog.toNat]? = some p ∧ p[s.upc.toNat]? = some b := by
  unfold fetchMicroOp
  cases hp : s.rom[s.prog.toNat]? with
  | none => simp
  | some p => cases hb : p[s.upc.toNat]? <;> simp [hb]

/-- A BODY step that answers ran a well-formed micro-op of the ROM. -/
theorem bodyPhase_eq_next {s t : State} (h : bodyPhase s = .next t) :
    ∃ b i u, fetchMicroOp s = .ok b ∧ decode (.uop b) = .ok i ∧ i.wellFormed = true
      ∧ exec i s = .next u ∧ t = nextUpc i u := by
  obtain ⟨b, hb, hk⟩ := withRead_next h
  cases hd : decode (.uop b) with
  | error e => simp [hd] at hk
  | ok i =>
    cases hw : i.wellFormed with
    | false => simp [hd, hw] at hk
    | true =>
      simp only [hd, hw, if_true] at hk
      obtain ⟨u, hu, ht⟩ := andThen_eq_next hk
      exact ⟨b, i, u, hb, hd, hw, hu, by cases ht; rfl⟩

/-- An HDR step that answers ran the HDR micro-op and then the header word's variant. -/
theorem hdrPhase_eq_next {s t : State} (h : hdrPhase s = .next t) :
    ∃ w u, s.memRead4 0 = .ok w ∧ exec .hdr s = .next u ∧ exec (decodeWire w) u = .next t := by
  obtain ⟨w, hw, hk⟩ := withRead_next h
  obtain ⟨u, hu, ht⟩ := andThen_eq_next hk
  exact ⟨w, u, hw, hu, ht⟩

/-- The engine's turn: nothing when idle, the phase's action when busy. -/
theorem engineStep_eq_next {s t : State} (h : engineStep s = .next t) :
    (s.status.busy = false ∧ t = s) ∨ (s.status.busy = true ∧ phaseStep s = .next t) := by
  unfold engineStep at h
  cases hb : s.status.busy <;> simp_all

@[simp] theorem engineRun_zero (s : State) : engineRun 0 s = .next s := rfl

@[simp] theorem engineRun_succ (n : Nat) (s : State) :
    engineRun (n + 1) s = andThen (engineStep s) (engineRun n) := rfl

/-- The map of R41 gives back every register at its own offset. -/
@[simp] theorem regAt_offset (r : Reg) : regAt r.offset = some r := by
  cases r with
  | slot i w => cases w <;> revert i <;> decide
  | _ => rfl

/-- Every mapped offset is its register's own. -/
theorem offset_of_regAt {off : Nat} {r : Reg} (h : regAt off = some r) : r.offset = off := by
  have hmul : off % 4 = 0 := by
    by_contra hne
    simp [regAt, hne] at h
  have hlt : off < 256 := by
    by_contra hge
    simp [regAt, hmul, show ¬ off < 128 by omega, hge] at h
  obtain ⟨j, rfl⟩ : ∃ j, off = 4 * j := ⟨off / 4, by omega⟩
  have hj : j < 64 := by omega
  interval_cases j <;> cases h <;> rfl

/-- Nothing is mapped at a misaligned offset, between the registers and the field slots, or past them
(R58, R82). -/
theorem regAt_unmapped {off : Nat}
    (h : off % 4 ≠ 0 ∨ (0x48 ≤ off ∧ off < 0x80) ∨ 0x100 ≤ off) : regAt off = none := by
  unfold regAt
  split
  · rfl
  · split
    · exact List.getElem?_eq_none (by simp only [registerMap, List.length_cons, List.length_nil]; omega)
    · rw [if_neg (by omega)]

/-- One input is one host access, one engine turn or a reset. -/
theorem step_cases (s : State) :
    (s.agenda = [] ∧ step s = engineStep s)
      ∨ ∃ e rest, s.agenda = e :: rest ∧ step s = handle { s with agenda := rest } e := by
  unfold step
  cases h : s.agenda with
  | nil => exact .inl ⟨rfl, rfl⟩
  | cons e rest => exact .inr ⟨e, rest, rfl, rfl⟩

end Sys2Proof.Machine
end

