-- ==== Sys2Proof/Laws/PerInstr.lean ====
section
/-! SUPPORT. Per instruction: its encoding is a word of its own row of spec/opcode_table.json (the row's
width, and the match under the mask). -/

namespace Sys2Proof.Laws

/-- A code's word has the width the row gives, and its fixed bits. -/
def inRow (c : Code) (r : Row) : Bool :=
  match c with
  | .cmd w => r.bits == 32 && w &&& BitVec.ofNat 32 r.mask == BitVec.ofNat 32 r.pattern
  | .uop b => r.bits == 8 && b &&& BitVec.ofNat 8 r.mask == BitVec.ofNat 8 r.pattern
  | .wire h => r.bits == 32 && h &&& BitVec.ofNat 32 r.mask == BitVec.ofNat 32 r.pattern

/-- The encoding of an instruction is a word of its row. -/
abbrev MatchesRow.Statement (i : Instr) : Prop := inRow (encode i) i.row = true

/-- Masking a header word to its tcode bits leaves the tcode. -/
theorem toWord_and_tcode (h : Header) (t : Nibble) :
    h.toWord t &&& 0x000000F0#32 = (t.setWidth 32) <<< 4 := by
  ext i hi
  simp only [Header.toWord, BitVec.getElem_and, BitVec.getElem_append, BitVec.getElem_shiftLeft,
    BitVec.getElem_setWidth]
  interval_cases i <;> simp

/-- A header word of tcode `t` is a word of the row that fixes the tcode bits to `t`. -/
theorem toWord_inRow (h : Header) (t : Nibble) :
    inRow (.wire (h.toWord t)) ⟨32, 0x000000F0, 16 * t.toNat⟩ = true := by
  unfold inRow
  simp only [toWord_and_tcode]
  revert t
  decide

theorem MatchesRow.matchSig : MatchesRow.Statement .matchSig := by decide
theorem MatchesRow.msglen : MatchesRow.Statement .msglen := by decide
theorem MatchesRow.decode : MatchesRow.Statement .decode := by decide
theorem MatchesRow.decodeS : MatchesRow.Statement .decodeS := by decide
theorem MatchesRow.endProg : MatchesRow.Statement .endProg := by decide
theorem MatchesRow.hdr : MatchesRow.Statement .hdr := by decide
theorem MatchesRow.u16 : ∀ k, MatchesRow.Statement (.u16 k) := by decide
theorem MatchesRow.u32 : ∀ k, MatchesRow.Statement (.u32 k) := by decide
theorem MatchesRow.rcode : MatchesRow.Statement .rcode := by decide
theorem MatchesRow.skip : ∀ n, MatchesRow.Statement (.skip n) := by decide
theorem MatchesRow.doff : MatchesRow.Statement .doff := by decide
theorem MatchesRow.dlen : MatchesRow.Statement .dlen := by decide
theorem MatchesRow.block : MatchesRow.Statement .block := by decide
theorem MatchesRow.wqreq (h : Header) : MatchesRow.Statement (.wqreq h) :=
  toWord_inRow h 0#4
theorem MatchesRow.wbreq (h : Header) : MatchesRow.Statement (.wbreq h) :=
  toWord_inRow h 1#4
theorem MatchesRow.wresp (h : Header) : MatchesRow.Statement (.wresp h) :=
  toWord_inRow h 2#4
theorem MatchesRow.rsvd3 (h : Header) : MatchesRow.Statement (.rsvd3 h) :=
  toWord_inRow h 3#4
theorem MatchesRow.rqreq (h : Header) : MatchesRow.Statement (.rqreq h) :=
  toWord_inRow h 4#4
theorem MatchesRow.rbreq (h : Header) : MatchesRow.Statement (.rbreq h) :=
  toWord_inRow h 5#4
theorem MatchesRow.rqresp (h : Header) : MatchesRow.Statement (.rqresp h) :=
  toWord_inRow h 6#4
theorem MatchesRow.rbresp (h : Header) : MatchesRow.Statement (.rbresp h) :=
  toWord_inRow h 7#4

/-- Masking a header word to its top tcode bit leaves that bit. -/
theorem toWord_and_top (h : Header) (low : BitVec 3) :
    h.toWord (1#1 ++ low) &&& 0x00000080#32 = 0x00000080#32 := by
  have h1 : (0x00000080#32) = 0x000000F0#32 &&& 0x00000080#32 := by decide
  rw [h1, ← BitVec.and_assoc, toWord_and_tcode]
  revert low
  decide

theorem MatchesRow.rsvd8to15 (h : Header) (low : BitVec 3) :
    MatchesRow.Statement (.rsvd8to15 h low) := by
  change inRow (.wire (h.toWord (1#1 ++ low))) ⟨32, 0x00000080, 0x00000080⟩ = true
  simp [inRow, toWord_and_top]

end Sys2Proof.Laws
end

