-- ==== Sys2Proof/Tests/Slice0.lean ====
section
/-! SUPPORT. The author's tests. Expected values are the spec's own: the words of 30_encoding.md written
out bit by bit, and the vectors of 95_test_vectors.md, named by their id (M1, L9, U3, D2, E1, V1, S5).
The `witness` theorems show that the hypotheses of each obligation can be met, at the boundary values of
its clauses. -/

namespace Sys2Proof.Tests

open Sys2Proof Sys2Proof.Machine

/-! ### Helpers -/

/-- Bytes of a message. -/
def bytesOf (l : List Nat) : List Byte := l.map (BitVec.ofNat 8)

/-- An idle engine whose host has loaded this message. -/
def loaded (l : List Nat) : State :=
  { State.reset with
    buf := Memory.writeBytes [] 0 (bytesOf l)
    bufLen := BitVec.ofNat 32 l.length }

/-- What a next state holds. -/
def after {α : Type} (r : Res State) (f : State → α) : Option α :=
  match r with
  | .next s => some (f s)
  | _ => none

/-- The next state, for a step that answers one. -/
def nextOf (r : Res State) : State :=
  match r with
  | .next s => s
  | _ => State.reset

/-- The engine is running this command's phase. -/
def running (p : Phase) (op : Nibble) (s : State) : State :=
  { s with phase := p, status := { s.status with busy := true, lastOp := op } }

/-- A DECODE with detail in BODY, at this cursor. -/
def inBody (cur : Word) (s : State) : State :=
  { running .body 3#4 s with detailR := true, cur := cur, fieldCount := 3#4 }

def d1 : List Nat :=
  [0x01, 0x23, 0xA8, 0x00, 0xFF, 0xC0, 0xFF, 0xFF, 0xF0, 0xD0, 0, 0, 0x12, 0x34, 0x56, 0x78]
def d2 : List Nat :=
  [0, 0, 0x04, 0x10, 0, 1, 0xFF, 0xFF, 0xF0, 0x38, 0, 0, 0, 6, 0, 0, 1, 2, 3, 4, 5, 6]
def d3 : List Nat := [0, 0, 0x08, 0x20, 0, 5, 0x40, 0, 0, 0, 0, 0]
def d4 : List Nat := [0, 0, 0x0C, 0x40, 0, 2, 0xFF, 0xFF, 0xF0, 0xD0, 0, 4]
def d5 : List Nat := [0, 0, 0x10, 0x50, 0, 2, 0xFF, 0xFF, 0xF0, 0xD0, 0, 0, 0, 0x40, 0, 0]
def d6 : List Nat := [0, 0, 0, 0x60, 0, 1, 0, 0, 0, 0, 0, 0, 0xDE, 0xAD, 0xBE, 0xEF]
def d8 : List Nat := [0, 0, 0, 0x30, 0x11, 0x22, 0x33, 0x44, 0x55, 0x66, 0x77, 0x88]
def d9 : List Nat := [0, 0, 0, 0x95, 0, 0, 0, 0, 0, 0, 0, 0]

/-- The state after a DECODE of vector D2: its data block is valid. -/
def viewing : State := nextOf (andThen (exec .decode (loaded d2)) (engineRun 9))

/-- A record, from numbers: kind, start, length, value (R147). -/
def mkRec (k a n v : Nat) : FieldRec := Wire.record k a n v

/-! ### WellFormed: an ill-formed term for each check -/

theorem test_wf_refuses_u16_quadlet : (Instr.u16 7#4).wellFormed = false := by decide
theorem test_wf_refuses_u16_zero : (Instr.u16 0#4).wellFormed = false := by decide
theorem test_wf_refuses_u32_source : (Instr.u32 5#4).wellFormed = false := by decide
theorem test_wf_refuses_u32_zero : (Instr.u32 0#4).wellFormed = false := by decide
theorem test_wf_accepts_rom_kinds :
    (Instr.u16 5#4).wellFormed = true ∧ (Instr.u32 7#4).wellFormed = true := by decide

/-! ### Decoding: one word per constructor -/

/-- OP 1; DETAIL and bits [31:5] are ignored (R130, R132). -/
theorem test_decode_match :
    decode (.cmd 0b11111111111111111111111111110001#32) = .ok .matchSig := by rfl
theorem test_decode_msglen :
    decode (.cmd 0b00000000000000000000000000000010#32) = .ok .msglen := by rfl
theorem test_decode_decode :
    decode (.cmd 0b00000000000000000000000000010011#32) = .ok .decode := by rfl
theorem test_decode_decodeS :
    decode (.cmd 0b11111111111111111111111111100011#32) = .ok .decodeS := by rfl
theorem test_decode_end : decode (.uop 0b00000000#8) = .ok .endProg := by rfl
theorem test_decode_hdr : decode (.uop 0b00010000#8) = .ok .hdr := by rfl
theorem test_decode_u16 : decode (.uop 0b00100101#8) = .ok (.u16 5#4) := by rfl
theorem test_decode_u32 : decode (.uop 0b00110111#8) = .ok (.u32 7#4) := by rfl
theorem test_decode_rcode : decode (.uop 0b01000000#8) = .ok .rcode := by rfl
theorem test_decode_skip : decode (.uop 0b01010101#8) = .ok (.skip 5#4) := by rfl
theorem test_decode_doff : decode (.uop 0b01100000#8) = .ok .doff := by rfl
theorem test_decode_dlen : decode (.uop 0b01110000#8) = .ok .dlen := by rfl
theorem test_decode_block : decode (.uop 0b10000000#8) = .ok .block := by rfl
/-- Boot flag 1, id 5, label 0x2A, reserved 2, tcode 0, priority 3 (R111). -/
theorem test_decode_wqreq :
    decode (.wire 0b10000000000001011010101000000011#32)
      = .ok (.wqreq ⟨1#1, 5#15, 0x2A#6, 2#2, 3#4⟩) := by rfl
theorem test_decode_wbreq :
    decode (.wire 0b00000001001000110000010000010000#32)
      = .ok (.wbreq ⟨0#1, 0x123#15, 1#6, 0#2, 0#4⟩) := by rfl
theorem test_decode_wresp :
    decode (.wire 0b00000000000000000000100000100000#32)
      = .ok (.wresp ⟨0#1, 0#15, 2#6, 0#2, 0#4⟩) := by rfl
theorem test_decode_rsvd3 :
    decode (.wire 0b00000000000000000000000000111111#32)
      = .ok (.rsvd3 ⟨0#1, 0#15, 0#6, 0#2, 15#4⟩) := by rfl
theorem test_decode_rqreq :
    decode (.wire 0b00000000000000000000110001000000#32)
      = .ok (.rqreq ⟨0#1, 0#15, 3#6, 0#2, 0#4⟩) := by rfl
theorem test_decode_rbreq :
    decode (.wire 0b00000000000000000001000001010000#32)
      = .ok (.rbreq ⟨0#1, 0#15, 4#6, 0#2, 0#4⟩) := by rfl
theorem test_decode_rqresp :
    decode (.wire 0b01111111111111110000000101100000#32)
      = .ok (.rqresp ⟨0#1, 0x7FFF#15, 0#6, 1#2, 0#4⟩) := by rfl
theorem test_decode_rbresp :
    decode (.wire 0b00000000000000000001010001110000#32)
      = .ok (.rbresp ⟨0#1, 0#15, 5#6, 0#2, 0#4⟩) := by rfl
/-- The header word of vector D9: tcode 9, priority 5. -/
theorem test_decode_rsvd8to15 :
    decode (.wire 0b00000000000000000000000010010101#32)
      = .ok (.rsvd8to15 ⟨0#1, 0#15, 0#6, 0#2, 5#4⟩ 1#3) := by rfl
/-- R131: OP 0 and OP 4 are no commands. -/
theorem test_decode_reserved_command :
    decode (.cmd 0x00000010#32) = .error (.reservedCommand 0#4)
      ∧ decode (.cmd 0x00000004#32) = .error (.reservedCommand 4#4) := ⟨rfl, rfl⟩
/-- R137: code 9, and END with an argument. -/
theorem test_decode_reserved_micro_op :
    decode (.uop 0x90#8) = .error (.reservedMicroOp 0x90#8)
      ∧ decode (.uop 0x01#8) = .error (.reservedMicroOp 0x01#8) := ⟨rfl, rfl⟩

/-! ### Commands -/

/-- R294: an accepted MATCH. -/
theorem test_match_accepted :
    after (exec .matchSig State.reset) (fun t => (t.status.toWord, t.phase))
      = some (0x11#32, .exec) := by decide
/-- M6: tcode 7 matches; M9: priority 1 does not. -/
theorem test_match_result :
    after (engineStep (running .exec 1#4 (loaded [0, 0, 0, 0x70]))) (·.matchRes) = some true
      ∧ after (engineStep (running .exec 1#4 (loaded [0, 0, 0, 0x11]))) (·.matchRes) = some false := by
  decide
/-- L9: 16 and a data_length of 6. -/
theorem test_msglen_block :
    after (engineStep (running .exec 2#4
      (loaded [0, 0, 0, 0x10, 0, 1, 0xFF, 0xFF, 0xF0, 0x38, 0, 0, 0, 6]))) (·.msglenRes)
      = some 22#32 := by decide
/-- L17: ORC_OFF near 2^32 does not wrap; L14: ERRCODE 3. -/
theorem test_msglen_short :
    after (engineStep (running .exec 2#4 { loaded (List.replicate 16 0) with orcOff := 0xFFFFFFFF#32 }))
      (fun t => (t.status.err, t.status.errCode, t.phase)) = some (true, 3#4, .finish) := by decide
/-- R240, R241: DECODE clears what an earlier command left. -/
theorem test_decode_command :
    after (exec .decode { State.reset with fieldCount := 5#4, cur := 9#32, summary := ⟨true, true, true, true, 9#4⟩ })
      (fun t => (t.detailR, t.fieldCount, t.cur, t.summary.toWord, t.phase))
      = some (true, 0#4, 0#32, 0#32, .gate) := by decide
/-- E: a command while busy raises E_BUSY and is dropped (R294). -/
theorem test_decodeS_command :
    after (exec .decodeS State.reset) (fun t => (t.detailR, t.status.toWord)) = some (false, 0x31#32)
      ∧ after (exec .decodeS (running .exec 1#4 State.reset)) (·.status.toWord) = some 0x215#32 := by
  decide

/-! ### Micro-ops -/

/-- U22. -/
theorem test_end : after (exec .endProg (inBody 16#32 State.reset)) (·.phase) = some .finish := by decide
/-- U1: the boot flag makes a BOOT_ID record. -/
theorem test_hdr_boot :
    after (exec .hdr { State.reset with
        detailR := true, buf := Memory.writeBytes [] 0 (bytesOf [0x80, 0x05, 0xA8, 0x00]) })
      (fun t => (t.records, t.tcodeR, t.cur))
      = some ([mkRec 2 0 2 5, mkRec 3 2 1 0x2A, mkRec 4 3 1 0], 0#4, 4#32) := by decide
/-- U2: reserved bits and priority are not reported. -/
theorem test_hdr_reserved_bits :
    after (exec .hdr { State.reset with
        detailR := true, buf := Memory.writeBytes [] 0 (bytesOf [0x01, 0x23, 0x03, 0x9F]) })
      (fun t => (t.records, t.tcodeR)) = some ([mkRec 1 0 2 0x123, mkRec 3 2 1 0, mkRec 4 3 1 9], 9#4) := by
  decide
/-- U3. -/
theorem test_u16 :
    after (exec (.u16 5#4) (inBody 4#32 (loaded d1))) (fun t => (t.fields[3], t.cur))
      = some (mkRec 5 4 2 0xFFC0, 6#32) := by decide
/-- U4: one byte present reports nothing and still advances. -/
theorem test_u16_short :
    after (exec (.u16 5#4) (inBody 4#32 (loaded (d1.take 5)))) (fun t => (t.fieldCount, t.cur))
      = some (3#4, 6#32) := by decide
/-- U5. -/
theorem test_u32 :
    after (exec (.u32 7#4) (inBody 12#32 (loaded d6))) (fun t => (t.fields[3], t.cur))
      = some (mkRec 7 12 4 0xDEADBEEF, 16#32) := by decide
/-- U6. -/
theorem test_u32_short :
    after (exec (.u32 7#4) (inBody 12#32 (loaded (d6.take 15)))) (fun t => (t.fieldCount, t.cur))
      = some (3#4, 16#32) := by decide
/-- U7: the low nibble is ignored. -/
theorem test_rcode :
    after (exec .rcode (inBody 6#32 (loaded [0, 0, 0, 0x20, 0, 5, 0x4F, 0])))
      (fun t => (t.fields[3], t.cur)) = some (mkRec 8 6 1 4, 7#32) := by decide
/-- U8. -/
theorem test_rcode_short :
    after (exec .rcode (inBody 6#32 (loaded (d3.take 6)))) (fun t => (t.fieldCount, t.cur))
      = some (3#4, 7#32) := by decide
/-- U9. -/
theorem test_skip : after (exec (.skip 5#4) (inBody 7#32 State.reset)) (·.cur) = some 12#32 := by decide
/-- U11: the record covers the address bytes alone. -/
theorem test_doff :
    after (exec .doff (inBody 6#32 (loaded d4))) (fun t => (t.fields[3], t.cur))
      = some (mkRec 6 8 4 0xF0D00004, 12#32) := by decide
/-- U12. -/
theorem test_doff_short :
    after (exec .doff (inBody 6#32 (loaded (d4.take 11)))) (fun t => (t.fieldCount, t.cur))
      = some (3#4, 12#32) := by decide
/-- U13. -/
theorem test_dlen :
    after (exec .dlen (inBody 12#32 (loaded (d2.take 14)))) (fun t => (t.fields[3], t.dlen, t.cur))
      = some (mkRec 9 12 2 6, 6#16, 14#32) := by decide
/-- U14: a truncated data_length gives 0. -/
theorem test_dlen_short :
    after (exec .dlen { inBody 12#32 (loaded (d2.take 13)) with dlen := 9#16 })
      (fun t => (t.fieldCount, t.dlen, t.cur)) = some (3#4, 0#16, 14#32) := by decide
/-- U15. -/
theorem test_block :
    after (exec .block { inBody 16#32 (loaded d2) with dlen := 6#16 })
      (fun t => (t.fields[3], t.block.start, t.block.infoWord, t.block.countsWord))
      = some (mkRec 10 16 6 6, 16#32, 0x80000006#32, 0x00010006#32) := by decide
/-- U16: with a byte missing nothing is reported. -/
theorem test_block_short :
    after (exec .block { inBody 16#32 (loaded (d2.take 21)) with dlen := 6#16 })
      (fun t => (t.fieldCount, t.block.valid)) = some (3#4, false) := by decide

/-! ### Wire variants: the summary words of D1 to D9 -/

/-- The HDR phase on a message: summary, destination address, program. -/
def dispatched (l : List Nat) : Option (Word × Word × BitVec 3) :=
  after (engineStep { running .hdr 3#4 (loaded l) with summary := { Summary.zero with valid := true } })
    fun t => (t.summary.toWord, t.sumDestOff, t.prog)

theorem test_wqreq : dispatched d1 = some (0x0B#32, 0xF0D00000#32, 0#3) := by decide
theorem test_wbreq : dispatched d2 = some (0x1B#32, 0xF0380000#32, 1#3) := by decide
theorem test_wresp : dispatched d3 = some (0x23#32, 0#32, 2#3) := by decide
theorem test_rsvd3 : dispatched d8 = some (0x37#32, 0#32, 3#3) := by decide
theorem test_rqreq : dispatched d4 = some (0x4B#32, 0xF0D00004#32, 4#3) := by decide
theorem test_rbreq : dispatched d5 = some (0x5B#32, 0xF0D00000#32, 5#3) := by decide
theorem test_rqresp : dispatched d6 = some (0x63#32, 0#32, 6#3) := by decide
theorem test_rbresp :
    dispatched [0, 0, 0x14, 0x70, 0, 7, 0, 0, 0, 0, 0, 0] = some (0x73#32, 0#32, 7#3) := by decide
theorem test_rsvd8to15 : dispatched d9 = some (0x97#32, 0#32, 3#3) := by decide

/-! ### The host bus -/

/-- R84, R87: a word is stored big-endian. -/
theorem test_buf_write_big_endian :
    after (hostAccess State.reset (.write .buf 4 .word 0x0002FFFF#32))
      (fun t => (t.buf.read? 5, t.buf.read? 6, t.buf.read? 8)) = some (some 2#8, some 0xFF#8, none) := by
  decide
/-- The view vectors of 95_test_vectors.md: word 0 is 0x01020304, byte 5 is 6. -/
theorem test_views :
    after (hostAccess viewing (.write .reg 0x3C .word 0#32)) (·.viewData) = some 0x01020304#32
      ∧ after (hostAccess viewing (.write .reg 0x3C .word 0x80000005#32)) (·.viewData) = some 6#32 := by
  decide
/-- R56, R82: ID reads its constant; an unmapped offset is a bus error. -/
theorem test_register_reads :
    after (hostAccess State.reset (.read .reg 0x44 .word)) (·.response) = some (some (.data 0x4F4D4D50#32))
      ∧ after (hostAccess State.reset (.read .reg 0x48 .word)) (·.response) = some (some .busError) := by
  decide
/-- R333: an unwritten byte has no value. -/
theorem test_unwritten_byte :
    hostAccess State.reset (.read .buf 0 .byte) = .fault (.unwrittenByte 0) := by rfl
/-- S5: the Write Quadlet Request of R127, byte by byte. -/
theorem test_write_quadlet_bytes :
    writeQuadletRequest 0#1 0x123#15 0x2A#6 0xFFC0#16 0xF0D00000#32 0x12345678#32 = bytesOf d1 := by
  decide

/-! ### Witnesses: the hypotheses of each obligation are met -/

/-- The engine an MSGLEN at this offset finds. -/
def atOffset (o : Word) (l : List Nat) : State := { loaded l with orcOff := o }

/-- An engine whose next input is this one. -/
def facing (e : Event) (s : State) : State := { s with agenda := [e] }

/-- An engine whose next micro-op is this word. -/
def atWord (b : Byte) : State := State.reset.placeMicroOp b

theorem witness_EncodeDecodeKeepsEveryBit :
    decode (.uop 0x25#8) = .ok (.u16 5#4)
      ∧ decode (.wire 0x00000095#32) = .ok (.rsvd8to15 ⟨0#1, 0#15, 0#6, 0#2, 5#4⟩ 1#3) := ⟨rfl, rfl⟩

/-- OP at both ends of each clause's range. -/
theorem witness_CommandWordDecoding :
    (0x1#32).toNat % 16 = 1 ∧ (0xFFFFFFF1#32).toNat % 16 = 1 ∧ (0xFFFFFFF2#32).toNat % 16 = 2
      ∧ ((0x13#32).toNat % 16 = 3 ∧ (0x13#32).toNat / 16 % 2 = 1)
      ∧ ((0xFFFFFFE3#32).toNat % 16 = 3 ∧ (0xFFFFFFE3#32).toNat / 16 % 2 = 0)
      ∧ (0x10#32).toNat % 16 = 0 ∧ 4 ≤ (0x4#32).toNat % 16 ∧ 4 ≤ (0xF#32).toNat % 16 := by decide

/-- A word of each reserved kind, in BODY. -/
theorem witness_ReservedMicroOpsRefused :
    ∀ b ∈ [0x90#8, 0xFF#8, 0x01#8, 0x1F#8, 0x41#8, 0x61#8, 0x8F#8, 0x24#8, 0x26#8, 0x36#8, 0x38#8],
      (atWord b).status.busy = true ∧ (atWord b).phase = .body
        ∧ (fetchMicroOp (atWord b)).toOption = some b
        ∧ reservedMicroOp b := by decide

theorem witness_CommandWriteRunsDecoded :
    (facing (.access (.write .reg 0x00 .word 0x13#32)) State.reset).agenda
        = [.access (.write .reg 0x00 .word 0x13#32)]
      ∧ decode (.cmd 0x13#32) = .ok .decode := ⟨rfl, rfl⟩

theorem witness_BodyStepRunsDecoded :
    (atWord 0x25#8).agenda = [.engine] ∧ (atWord 0x25#8).status.busy = true
      ∧ (atWord 0x25#8).phase = .body
      ∧ (atWord 0x25#8).rom[(atWord 0x25#8).prog.toNat]? = some [0x25#8, 0x60#8, 0x37#8, 0x00#8]
      ∧ [0x25#8, 0x60#8, 0x37#8, 0x00#8][(atWord 0x25#8).upc.toNat]? = some 0x25#8
      ∧ decode (.uop 0x25#8) = .ok (.u16 5#4) ∧ (Instr.u16 5#4).wellFormed = true :=
  ⟨rfl, rfl, rfl, rfl, rfl, rfl, rfl⟩

theorem witness_HeaderStepRunsDecoded :
    (facing .engine (running .hdr 3#4 (loaded d9))).agenda = [.engine]
      ∧ (running .hdr 3#4 (loaded d9)).status.busy = true
      ∧ (running .hdr 3#4 (loaded d9)).phase = .hdr
      ∧ (running .hdr 3#4 (loaded d9)).memRead4 0 = .ok 0x00000095#32
      ∧ decode (.wire 0x00000095#32) = .ok (.rsvd8to15 ⟨0#1, 0#15, 0#6, 0#2, 5#4⟩ 1#3) :=
  ⟨rfl, rfl, rfl, rfl, rfl⟩

theorem witness_ResetEventRestoresAll : (facing .reset (inBody 4#32 (loaded d1))).agenda = [.reset] := rfl

theorem loaded_d2_inv : (loaded d2).Inv := by
  refine ⟨?_, ?_, ?_, ?_, ?_, ?_, ?_, ?_⟩ <;> decide

/-- An idle engine, and one in GATE. -/
theorem witness_StepKeepsInv :
    ((loaded d2).Inv ∧ step (loaded d2) = .next (loaded d2))
      ∧ (nextOf (exec .decode (loaded d2))).Inv
      ∧ step (nextOf (exec .decode (loaded d2)))
          = .next (nextOf (step (nextOf (exec .decode (loaded d2))))) := by
  refine ⟨⟨loaded_d2_inv, rfl⟩, ⟨?_, ?_, ?_, ?_, ?_, ?_, ?_, ?_⟩, rfl⟩ <;> decide

/-- M6, at 4 bytes. -/
theorem witness_MatchRunsToResult :
    (loaded [0, 0, 0, 0x70]).status.busy = false ∧ 4 ≤ (loaded [0, 0, 0, 0x70]).bufLen.toNat
      ∧ (loaded [0, 0, 0, 0x70]).memRead2 0 = .ok 0#16
      ∧ (loaded [0, 0, 0, 0x70]).memRead1 2 = .ok 0#8
      ∧ (loaded [0, 0, 0, 0x70]).memRead1 3 = .ok 0x70#8 := ⟨rfl, by decide, rfl, rfl, rfl⟩

/-- M1 and M2, at 0 and 3 bytes. -/
theorem witness_MatchShortBuffer :
    (loaded []).status.busy = false ∧ (loaded []).bufLen.toNat < 4
      ∧ (loaded [0, 0, 0]).status.busy = false ∧ (loaded [0, 0, 0]).bufLen.toNat < 4 := by decide

theorem witness_SignatureMaskForm :
    (loaded [0, 0, 0xFC, 0x60]).memRead4 0 = .ok 0x0000FC60#32
      ∧ (loaded [0, 0, 0xFC, 0x60]).memRead2 0 = .ok 0#16
      ∧ (loaded [0, 0, 0xFC, 0x60]).memRead1 2 = .ok 0xFC#8
      ∧ (loaded [0, 0, 0xFC, 0x60]).memRead1 3 = .ok 0x60#8 := ⟨rfl, rfl, rfl, rfl⟩

/-- L1 at exactly 4 bytes, L8 at 13, L9 at 14, L12 at exactly 14 from offset 16. -/
theorem witness_MsglenRunsToResult :
    ((loaded [0, 0, 0, 0]).status.busy = false ∧ 0 + 4 ≤ (loaded [0, 0, 0, 0]).bufLen.toNat
        ∧ (loaded [0, 0, 0, 0]).memRead1 3 = .ok 0#8)
      ∧ ((loaded (d2.take 13)).memRead1 3 = .ok 0x10#8 ∧ ¬ 14 ≤ (loaded (d2.take 13)).bufLen.toNat)
      ∧ ((loaded (d2.take 14)).memRead1 3 = .ok 0x10#8 ∧ 14 ≤ (loaded (d2.take 14)).bufLen.toNat
        ∧ (loaded (d2.take 14)).memRead2 12 = .ok 6#16)
      ∧ ((atOffset 16#32 (d1 ++ d2.take 14)).orcOff.toNat + 14
            ≤ (atOffset 16#32 (d1 ++ d2.take 14)).bufLen.toNat
        ∧ (atOffset 16#32 (d1 ++ d2.take 14)).memRead1 19 = .ok 0x10#8
        ∧ (atOffset 16#32 (d1 ++ d2.take 14)).memRead2 28 = .ok 6#16) :=
  ⟨⟨rfl, by decide, rfl⟩, ⟨rfl, by decide⟩, ⟨rfl, by decide, rfl⟩, ⟨by decide, rfl, rfl⟩⟩

/-- L14, L15 and L17. -/
theorem witness_MsglenShortRaisesOrcShort :
    ∀ s ∈ [loaded [0, 0, 0], atOffset 8#32 (d1.take 11), atOffset 0xFFFFFFFF#32 d1],
      s.status.busy = false ∧ s.bufLen.toNat < s.orcOff.toNat + 4 := by decide

/-- L9's buffer, in an engine after reset and in one after a DECODE of it. -/
theorem witness_MsglenDependsOnPrefixOnly :
    (loaded d2).status.busy = false ∧ viewing.status.busy = false
      ∧ (loaded d2).bufLen = viewing.bufLen ∧ (loaded d2).orcOff = viewing.orcOff
      ∧ (loaded d2).orcOff.toNat + 4 ≤ (loaded d2).bufLen.toNat
      ∧ (∀ k, k = 3 ∨ k = 12 ∨ k = 13 →
          viewing.buf.read? ((loaded d2).orcOff.toNat + k)
            = (loaded d2).buf.read? ((loaded d2).orcOff.toNat + k))
      ∧ andThen (exec .msglen (loaded d2)) (engineRun 2)
          = .next (nextOf (andThen (exec .msglen (loaded d2)) (engineRun 2)))
      ∧ andThen (exec .msglen viewing) (engineRun 2)
          = .next (nextOf (andThen (exec .msglen viewing) (engineRun 2))) :=
  ⟨rfl, rfl, rfl, rfl, by decide, fun _ _ => rfl, rfl, rfl⟩

theorem witness_DecodeStartsFresh :
    viewing.status.busy = false
      ∧ (Instr.decode = .decode ∧ true = true ∨ Instr.decode = .decodeS ∧ true = false)
      ∧ (Instr.decodeS = .decode ∧ false = true ∨ Instr.decodeS = .decodeS ∧ false = false) := by
  decide

theorem witness_BusyDropsCommands :
    (inBody 4#32 (loaded d1)).status.busy = true
      ∧ ∀ i ∈ [Instr.matchSig, .msglen, .decode, .decodeS],
          i = .matchSig ∨ i = .msglen ∨ i = .decode ∨ i = .decodeS := by decide

/-- D2; the empty message (D11); 11 and 12 bytes. -/
theorem witness_DecodeReportsMessage :
    ((loaded d2).Inv ∧ (loaded d2).status.busy = false ∧ (loaded d2).Holds (bytesOf d2))
      ∧ ((loaded []).Inv ∧ (loaded []).status.busy = false ∧ (loaded []).Holds [])
      ∧ (loaded (d3.take 11)).Holds (bytesOf (d3.take 11)) ∧ (loaded d3).Holds (bytesOf d3) := by
  refine ⟨⟨loaded_d2_inv, rfl, ?_⟩, ⟨⟨?_, ?_, ?_, ?_, ?_, ?_, ?_, ?_⟩, rfl, ?_⟩, ?_, ?_⟩ <;> decide

theorem witness_SummaryIndependentOfDetail :
    (loaded d2).Inv ∧ (loaded d2).status.busy = false ∧ (loaded d2).Holds (bytesOf d2) :=
  witness_DecodeReportsMessage.1

theorem witness_ShortDecodeReportsNothing :
    (loaded []).status.busy = false ∧ (loaded []).bufLen.toNat < 12
      ∧ (loaded (d3.take 11)).status.busy = false ∧ (loaded (d3.take 11)).bufLen.toNat < 12 := by
  decide

/-- The first turn and the last. -/
theorem witness_DecodeTakesItsSteps :
    ((loaded d2).Inv ∧ (loaded d2).status.busy = false ∧ (loaded d2).Holds (bytesOf d2))
      ∧ 0 ≤ Wire.decodeSteps (bytesOf d2) ∧ 9 ≤ Wire.decodeSteps (bytesOf d2) :=
  ⟨witness_DecodeReportsMessage.1, by decide, by decide⟩

/-- S5. -/
theorem witness_WriteQuadletRoundTrip :
    (loaded d1).Inv ∧ (loaded d1).status.busy = false
      ∧ (loaded d1).Holds
          (writeQuadletRequest 0#1 0x123#15 0x2A#6 0xFFC0#16 0xF0D00000#32 0x12345678#32) := by
  refine ⟨⟨?_, ?_, ?_, ?_, ?_, ?_, ?_, ?_⟩, rfl, ?_⟩ <;> decide

/-- D2 and its first 13 bytes. -/
theorem witness_TruncationReportsPrefix :
    ((loaded d2).Inv ∧ (loaded d2).status.busy = false ∧ (loaded d2).Holds (bytesOf d2))
      ∧ ((loaded (d2.take 13)).Inv ∧ (loaded (d2.take 13)).status.busy = false
        ∧ (loaded (d2.take 13)).Holds ((bytesOf d2).take 13))
      ∧ andThen (exec .decode (loaded d2)) (engineRun (Wire.decodeSteps (bytesOf d2))) = .next viewing
      ∧ andThen (exec .decode (loaded (d2.take 13)))
            (engineRun (Wire.decodeSteps ((bytesOf d2).take 13)))
          = .next (nextOf (andThen (exec .decode (loaded (d2.take 13))) (engineRun 9))) := by
  refine ⟨witness_DecodeReportsMessage.1, ⟨⟨?_, ?_, ?_, ?_, ?_, ?_, ?_, ?_⟩, rfl, ?_⟩, rfl, rfl⟩
    <;> decide

/-- The same message in an engine after reset and in one that has decoded it before. -/
theorem witness_DecodeForgetsThePast :
    (loaded d2).status.busy = false ∧ viewing.status.busy = false
      ∧ (loaded d2).buf = viewing.buf ∧ (loaded d2).bufLen = viewing.bufLen
      ∧ (loaded d2).rom = viewing.rom
      ∧ andThen (exec .decode (loaded d2)) (engineRun 9) = .next viewing
      ∧ viewing.status.busy = false
      ∧ andThen (exec .decode viewing) (engineRun 9)
          = .next (nextOf (andThen (exec .decode viewing) (engineRun 9))) :=
  ⟨rfl, rfl, rfl, rfl, rfl, rfl, rfl, rfl⟩

/-- An idle engine, and one whose MSGLEN is about to raise E_ORC_SHORT (L14). -/
theorem witness_EngineNeverStops :
    ((loaded d2).Inv ∧ (loaded d2).Loaded)
      ∧ (running .exec 2#4 (loaded [0, 0, 0])).Inv ∧ (running .exec 2#4 (loaded [0, 0, 0])).Loaded
      ∧ after (engineStep (running .exec 2#4 (loaded [0, 0, 0]))) (·.status.err) = some true := by
  refine ⟨⟨loaded_d2_inv, ?_⟩, ⟨?_, ?_, ?_, ?_, ?_, ?_, ?_, ?_⟩, ?_, ?_⟩ <;> decide

/-- A busy engine on 4 bytes, and the same buffer with one more byte past BUF_LEN. -/
theorem witness_EngineReadsOnlyTheMessage :
    (running .exec 1#4 (loaded [0, 0, 0, 0])).Inv
      ∧ (∀ a, a < (running .exec 1#4 (loaded [0, 0, 0, 0])).bufLen.toNat →
          (Memory.writeBytes [] 0 (bytesOf [0, 0, 0, 0, 9])).read? a
            = (running .exec 1#4 (loaded [0, 0, 0, 0])).buf.read? a)
      ∧ engineStep (running .exec 1#4 (loaded [0, 0, 0, 0]))
          = .next (nextOf (engineStep (running .exec 1#4 (loaded [0, 0, 0, 0])))) := by
  refine ⟨⟨?_, ?_, ?_, ?_, ?_, ?_, ?_, ?_⟩, ?_, rfl⟩ <;> decide

theorem witness_EngineTurnFrame :
    (loaded d1).status.busy = false
      ∧ engineStep (running .exec 1#4 (loaded d1))
          = .next (nextOf (engineStep (running .exec 1#4 (loaded d1)))) := ⟨rfl, rfl⟩

/-- Slot 0 and slot 7. -/
theorem witness_EmitAppendsRecord :
    State.reset.detailR = false
      ∧ (({ State.reset with detailR := true } : State).detailR = true
        ∧ ({ State.reset with detailR := true } : State).fieldCount.toNat < 8)
      ∧ (({ State.reset with detailR := true, fieldCount := 7#4 } : State).detailR = true
        ∧ ({ State.reset with detailR := true, fieldCount := 7#4 } : State).fieldCount.toNat < 8) := by
  decide

theorem witness_HdrReportsHeader :
    (loaded d1).memRead2 0 = .ok 0x0123#16 ∧ (loaded d1).memRead1 2 = .ok 0xA8#8
      ∧ (loaded d1).memRead1 3 = .ok 0#8 := ⟨rfl, rfl, rfl⟩

/-- The field ends at the last byte of the message; it ends one byte past it (U4). -/
theorem witness_U16ReportsWhatFits :
    ((inBody 4#32 (loaded (d1.take 6))).cur.toNat + 2 ≤ (inBody 4#32 (loaded (d1.take 6))).bufLen.toNat
        ∧ (inBody 4#32 (loaded (d1.take 6))).memRead2 4 = .ok 0xFFC0#16)
      ∧ (inBody 4#32 (loaded (d1.take 5))).bufLen.toNat
          < (inBody 4#32 (loaded (d1.take 5))).cur.toNat + 2 := ⟨⟨by decide, rfl⟩, by decide⟩

/-- U5 and U6. -/
theorem witness_U32ReportsWhatFits :
    ((inBody 12#32 (loaded d6)).cur.toNat + 4 ≤ (inBody 12#32 (loaded d6)).bufLen.toNat
        ∧ (inBody 12#32 (loaded d6)).memRead4 12 = .ok 0xDEADBEEF#32)
      ∧ (inBody 12#32 (loaded (d6.take 15))).bufLen.toNat
          < (inBody 12#32 (loaded (d6.take 15))).cur.toNat + 4 := ⟨⟨by decide, rfl⟩, by decide⟩

/-- At 7 bytes and at 6 (U8). -/
theorem witness_RcodeReportsHighNibble :
    ((inBody 6#32 (loaded (d3.take 7))).cur.toNat + 1 ≤ (inBody 6#32 (loaded (d3.take 7))).bufLen.toNat
        ∧ (inBody 6#32 (loaded (d3.take 7))).memRead1 6 = .ok 0x40#8)
      ∧ (inBody 6#32 (loaded (d3.take 6))).bufLen.toNat
          < (inBody 6#32 (loaded (d3.take 6))).cur.toNat + 1 := ⟨⟨by decide, rfl⟩, by decide⟩

/-- U11's length, and U12. -/
theorem witness_DoffReportsAddress :
    (8#32 = (inBody 6#32 (loaded d4)).cur + 2#32 ∧ (8#32).toNat + 4 ≤ (inBody 6#32 (loaded d4)).bufLen.toNat
        ∧ (inBody 6#32 (loaded d4)).memRead4 (8#32).toNat = .ok 0xF0D00004#32)
      ∧ (inBody 6#32 (loaded (d4.take 11))).bufLen.toNat < (8#32).toNat + 4 :=
  ⟨⟨rfl, by decide, rfl⟩, by decide⟩

/-- U13 and U14. -/
theorem witness_DlenHoldsLength :
    ((inBody 12#32 (loaded (d2.take 14))).cur.toNat + 2
          ≤ (inBody 12#32 (loaded (d2.take 14))).bufLen.toNat
        ∧ (inBody 12#32 (loaded (d2.take 14))).memRead2 12 = .ok 6#16)
      ∧ (inBody 12#32 (loaded (d2.take 13))).bufLen.toNat
          < (inBody 12#32 (loaded (d2.take 13))).cur.toNat + 2 := ⟨⟨by decide, rfl⟩, by decide⟩

/-- U15, U16, and U21: no detail. -/
theorem witness_BlockIsAllOrNothing :
    (16 + 6 ≤ (inBody 16#32 (loaded d2)).bufLen.toNat ∧ (inBody 16#32 (loaded d2)).detailR = true)
      ∧ (inBody 16#32 (loaded (d2.take 21))).bufLen.toNat < 16 + 6
      ∧ (running .body 3#4 (loaded d2)).detailR = false := by decide

theorem witness_DestVariantsDispatch :
    (loaded d1).memRead4 8 = .ok 0xF0D00000#32
      ∧ decodeWire 0x0123A800#32 = .wqreq ⟨0#1, 0x123#15, 0x2A#6, 0#2, 0#4⟩
      ∧ (loaded d4).memRead4 8 = .ok 0xF0D00004#32
      ∧ decodeWire 0x00000C40#32 = .rqreq ⟨0#1, 0#15, 3#6, 0#2, 0#4⟩ := ⟨rfl, rfl, rfl, rfl⟩

/-- The ends of the range of reserved tcodes: 8 and 15. -/
theorem witness_OtherVariantsDispatch :
    decodeWire 0x00000080#32 = .rsvd8to15 ⟨0#1, 0#15, 0#6, 0#2, 0#4⟩ 0#3
      ∧ (8#4).toNat = 8 + (0#3).toNat
      ∧ decodeWire 0x000000F0#32 = .rsvd8to15 ⟨0#1, 0#15, 0#6, 0#2, 0#4⟩ 7#3
      ∧ (15#4).toNat = 8 + (7#3).toNat := ⟨rfl, rfl, rfl, rfl⟩

/-- An error recorded, another raised, and a STATUS write that clears DONE only. -/
def erred : State := State.reset.raise .badCmd

theorem witness_ErrorsAreSticky :
    State.reset.status.err = false ∧ erred.status.err = true
      ∧ step (facing (.access (.write .reg 0x04 .word 2#32)) erred)
          = .next (nextOf (step (facing (.access (.write .reg 0x04 .word 2#32)) erred)))
      ∧ (facing (.access (.write .reg 0x04 .word 2#32)) erred).agenda.head? ≠ some .reset
      ∧ (2#32).toNat / 4 % 2 = 0 ∧ (4#32).toNat / 4 % 2 = 1 :=
  ⟨rfl, rfl, rfl, by decide, by decide, by decide⟩

theorem witness_CtrlAndOrcOffWrites : (loaded d1).status.busy = false := rfl

theorem witness_ReservedCommandRecorded :
    State.reset.status.busy = false ∧ (0xFFFFFFF0#32).toNat % 16 = 0 ∧ 4 ≤ (4#32).toNat % 16
      ∧ 4 ≤ (15#32).toNat % 16 := by decide

/-- The last admitted byte and word of BUF. -/
theorem witness_BusyDropsWrites :
    (running .gate 3#4 State.reset).status.busy = true
      ∧ 65551 < (running .gate 3#4 State.reset).bufCap
      ∧ 65548 % 4 = 0 ∧ 65548 + 4 ≤ (running .gate 3#4 State.reset).bufCap := by decide

/-- BUF_CAP itself, and one more. -/
theorem witness_BufLenWrite :
    State.reset.status.busy = false ∧ (65552#32).toNat ≤ State.reset.bufCap
      ∧ State.reset.bufCap < (65553#32).toNat := by decide

theorem witness_IrqFollowsStatus :
    ({ erred with irqEn := true } : State).irqEn = true ∧ erred.status.err = true := by decide

/-- The last word and the last byte of D2's block. -/
theorem witness_ViewLatchesElement :
    viewing.status.busy = false ∧ viewing.block.valid = true
      ∧ ((0#32).toNat < 2 ^ 31 ∧ (0#32).toNat % 2 ^ 16 < viewing.block.words.toNat
        ∧ viewing.memRead4 (viewing.block.start.toNat + 4 * 0) = .ok 0x01020304#32)
      ∧ (2 ^ 31 ≤ (0x80000005#32).toNat
        ∧ (0x80000005#32).toNat % 2 ^ 16 < viewing.block.bytes.toNat
        ∧ viewing.memRead1 (viewing.block.start.toNat + 5) = .ok 6#8) :=
  ⟨rfl, rfl, ⟨by decide, by decide, rfl⟩, ⟨by decide, by decide, rfl⟩⟩

/-- No block; one past the last word; one past the last byte. -/
theorem witness_ViewBadIndex :
    State.reset.status.busy = false ∧ State.reset.block.valid = false
      ∧ ((1#32).toNat < 2 ^ 31 ∧ viewing.block.words.toNat ≤ (1#32).toNat % 2 ^ 16)
      ∧ (2 ^ 31 ≤ (0x80000006#32).toNat
        ∧ viewing.block.bytes.toNat ≤ (0x80000006#32).toNat % 2 ^ 16) := by decide

theorem witness_ViewNeverStops : viewing.Inv ∧ viewing.Loaded := by
  refine ⟨⟨?_, ?_, ?_, ?_, ?_, ?_, ?_, ?_⟩, ?_⟩ <;> decide

/-- Both ends of the unmapped ranges; the first byte and the first words past BUF_CAP. -/
theorem witness_NonAdmittedAccess :
    (0x02 % 4 ≠ 0) ∧ (0x48 ≤ 0x48 ∧ 0x48 < 0x80) ∧ (0x48 ≤ 0x7C ∧ 0x7C < 0x80) ∧ 0x100 ≤ 0x100
      ∧ State.reset.bufCap ≤ 65552 ∧ State.reset.bufCap < 65549 + 4 ∧ 65546 % 4 ≠ 0
      ∧ State.reset.bufCap < 65552 + 4 := by decide

/-- The ends of each range of read-only registers. -/
theorem witness_ReadOnlyWritesIgnored :
    ∀ off ∈ [0x14, 0x38, 0x40, 0x44, 0x80, 0xFC],
      off % 4 = 0
        ∧ (0x14 ≤ off ∧ off ≤ 0x38 ∨ off = 0x40 ∨ off = 0x44 ∨ 0x80 ≤ off ∧ off ≤ 0xFC) := by decide

/-- The last byte and the last word of BUF. -/
theorem witness_BufWriteStores :
    viewing.status.busy = false ∧ viewing.buf.wf viewing.bufCap = true
      ∧ 65551 < viewing.bufCap ∧ 65548 % 4 = 0 ∧ 65548 + 4 ≤ viewing.bufCap := by decide

/-- A written byte and word, and an unwritten byte and word. -/
theorem witness_BufReadReturns :
    (21 < (loaded d2).bufCap ∧ (loaded d2).buf.read? 21 = some 6#8)
      ∧ (16 % 4 = 0 ∧ 16 + 4 ≤ (loaded d2).bufCap ∧ (loaded d2).memRead4 16 = .ok 0x01020304#32)
      ∧ (22 < (loaded d2).bufCap ∧ (loaded d2).buf.read? 22 = none)
      ∧ (20 % 4 = 0 ∧ 20 + 4 ≤ (loaded d2).bufCap
        ∧ ∃ k, k < 4 ∧ (loaded d2).buf.read? (20 + k) = none) :=
  ⟨by decide, ⟨rfl, by decide, rfl⟩, by decide, ⟨rfl, by decide, 2, by decide, rfl⟩⟩

/-- An idle engine that has decoded D2, at the first offset, each packed register, the ends of the slots; a
busy engine at the first and the last offset that holds no result. -/
theorem witness_RegisterReadReturns :
    (viewing.status.busy = false
        ∧ (0x32#32).toNat = viewing.status.busy.toNat + 2 * viewing.status.done.toNat
          + 4 * viewing.status.err.toNat + 16 * viewing.status.lastOp.toNat
          + 256 * viewing.status.errCode.toNat
        ∧ (0x1B#32).toNat = viewing.summary.valid.toNat + 2 * viewing.summary.hasType.toNat
          + 4 * viewing.summary.tcodeRsvd.toNat + 8 * viewing.summary.hasDest.toNat
          + 16 * viewing.summary.tcode.toNat
        ∧ (0x80000006#32).toNat = 2 ^ 31 * viewing.block.valid.toNat + viewing.block.len.toNat
        ∧ (0x00010006#32).toNat = 2 ^ 16 * viewing.block.words.toNat + viewing.block.bytes.toNat
        ∧ (0x80 = 0x80 + 16 * (0 : Fin 8).val ∧ (1#32).toNat = viewing.fields[(0 : Fin 8)].kind.toNat)
        ∧ (0xFC = 0x8C + 16 * (7 : Fin 8).val ∧ 0#32 = viewing.fields[(7 : Fin 8)].value))
      ∧ (running .gate 3#4 State.reset).status.busy = true
        ∧ 0x00 ∈ [0x00, 0x04, 0x08, 0x0C, 0x10, 0x3C, 0x44]
        ∧ 0x44 ∈ [0x00, 0x04, 0x08, 0x0C, 0x10, 0x3C, 0x44] := by decide

theorem witness_ReadsHaveNoSideEffect :
    hostAccess State.reset (.read .reg 0x44 .word)
      = .next (nextOf (hostAccess State.reset (.read .reg 0x44 .word))) := rfl

/-- The ends of the list and of the field slots. -/
theorem witness_BusyResultReadCompletes :
    (running .gate 3#4 State.reset).status.busy = true
      ∧ ∀ off ∈ [0x14, 0x40, 0x80, 0xFC],
          off ∈ [0x14, 0x18, 0x1C, 0x20, 0x24, 0x28, 0x2C, 0x30, 0x34, 0x38, 0x40]
            ∨ (0x80 ≤ off ∧ off ≤ 0xFC ∧ off % 4 = 0) := by decide

/-- Two engines, of which the second takes a step. -/
theorem witness_EnginesShareNothing :
    (Engines.mk [State.reset, running .exec 1#4 (loaded d1)]).stepAt 1
      = some (.next ⟨[State.reset, nextOf (engineStep (running .exec 1#4 (loaded d1)))]⟩) := rfl

end Sys2Proof.Tests
end

section
/-! SUPPORT. The register map and the packed registers: what a register access reads and writes, and the
statements about them (10_state.md R41 to R57, 60_exceptions.md R301). -/

namespace Sys2Proof.Machine

/-! ### Register words as numbers -/

/-- Concatenation is addition of the high part, shifted by the width of the low one. -/
theorem toNat_append_eq_add {m n : Nat} (x : BitVec m) (y : BitVec n) :
    (x ++ y).toNat = 2 ^ n * x.toNat + y.toNat := by
  rw [BitVec.toNat_append, ← Nat.shiftLeft_add_eq_or_of_lt y.isLt, Nat.shiftLeft_eq, Nat.mul_comm]

/-- STATUS packs its fields at the bits of R43. -/
theorem Status.toWord_toNat (s : Status) :
    s.toWord.toNat = s.busy.toNat + 2 * s.done.toNat + 4 * s.err.toNat
      + 16 * s.lastOp.toNat + 256 * s.errCode.toNat := by
  simp only [Status.toWord, toNat_append_eq_add, BitVec.toNat_ofBool, BitVec.toNat_ofNat]
  omega

/-- SUMMARY packs its fields at the bits of R49. -/
theorem Summary.toWord_toNat (s : Summary) :
    s.toWord.toNat = s.valid.toNat + 2 * s.hasType.toNat + 4 * s.tcodeRsvd.toNat
      + 8 * s.hasDest.toNat + 16 * s.tcode.toNat := by
  simp only [Summary.toWord, toNat_append_eq_add, BitVec.toNat_ofBool, BitVec.toNat_ofNat]
  omega

/-- BLK_INFO packs its fields at the bits of R54. -/
theorem Block.infoWord_toNat (b : Block) :
    b.infoWord.toNat = 2 ^ 31 * b.valid.toNat + b.len.toNat := by
  simp only [Block.infoWord, toNat_append_eq_add, BitVec.toNat_ofBool, BitVec.toNat_ofNat]
  omega

/-- BLK_COUNTS packs its fields at the bits of R54. -/
theorem Block.countsWord_toNat (b : Block) :
    b.countsWord.toNat = 2 ^ 16 * b.words.toNat + b.bytes.toNat :=
  toNat_append_eq_add b.words b.bytes

/-- A register of one bit reads as that bit. -/
theorem bit0_toNat (b : Bool) : (bit0 b).toNat = b.toNat := by
  cases b <;> rfl

/-- A word with the number of a narrower field is that field, zero-extended. -/
theorem eq_setWidth_of_toNat_eq {m n : Nat} (hmn : m ≤ n) {v : BitVec n} {x : BitVec m}
    (h : v.toNat = x.toNat) : v = x.setWidth n :=
  BitVec.eq_of_toNat_eq (by rw [h, BitVec.toNat_setWidth_of_le hmn])

/-- Bit `i` of a word, by division. -/
theorem getLsbD_eq_decide_div (v : Word) (i : Nat) :
    v.getLsbD i = decide (v.toNat / 2 ^ i % 2 = 1) := by
  rw [BitVec.getLsbD, Nat.testBit_eq_decide_div_mod_eq]

/-- A flag cleared by a condition keeps its value when the condition fails. -/
theorem and_not_decide (b : Bool) (p : Prop) [Decidable p] :
    (b && !decide p) = if p then false else b := by
  by_cases hp : p <;> simp [hp]

/-- Settles O57, one packed register at a time. -/
theorem packedRegisterBits : Obligations.PackedRegisterBits := fun s =>
  ⟨s.status.toWord_toNat, s.summary.toWord_toNat, s.block.infoWord_toNat, s.block.countsWord_toNat⟩

/-! ### The register map -/

/-- Every word offset below the map's end is mapped, but for the gap before the field slots (R41). -/
theorem regAt_mapped {off : Nat} (hword : off % 4 = 0)
    (hrange : off < 0x48 ∨ 0x80 ≤ off ∧ off < 0x100) : ∃ r, regAt off = some r := by
  rw [regAt, if_neg (by omega)]
  split
  · have hlen : off / 4 < registerMap.length := by
      change off / 4 < 18
      omega
    exact ⟨_, List.getElem?_eq_getElem hlen⟩
  · rw [if_pos (by omega)]
    exact ⟨_, rfl⟩

/-- A word read of a register answers its value, unless it is a result the running command may still
write (R82, R341). -/
theorem hostAccess_read_reg {s : State} {r : Reg}
    (h : s.status.busy = false ∨ r.isResult = false) :
    hostAccess s (.read .reg r.offset .word) = .next (s.respond (.data (s.regValue r))) := by
  have hfree : (s.status.busy && r.isResult) = false := by
    rcases h with h | h <;> simp [h]
  simp [hostAccess, readReg, hfree]

/-- A word write of a register has that register's effect and answers Ok (R81, R82). -/
theorem hostAccess_write_reg (s : State) (r : Reg) (v : Word) :
    hostAccess s (.write .reg r.offset .word v)
      = andThen (writeMapped s v r) fun t => .next (t.respond .ok) := by
  simp [hostAccess, writeReg]

/-- The registers at the read-only offsets of R41 ignore a write. -/
theorem writeMapped_readOnly (s : State) (v : Word) {r : Reg}
    (h : 0x14 ≤ r.offset ∧ r.offset ≤ 0x38 ∨ r.offset = 0x40 ∨ r.offset = 0x44
      ∨ 0x80 ≤ r.offset ∧ r.offset ≤ 0xFC) : writeMapped s v r = .next s := by
  cases r with
  | cmd | status | ctrl | bufLen | orcOff | viewSel => simp [Reg.offset] at h
  | _ => rfl

/-- The seven offsets that hold no result (R341). -/
theorem isResult_eq_false_of_offset {r : Reg}
    (h : r.offset ∈ [0x00, 0x04, 0x08, 0x0C, 0x10, 0x3C, 0x44]) : r.isResult = false := by
  cases r with
  | cmd | status | ctrl | bufLen | orcOff | viewSel | id => rfl
  | slot i w => cases w <;> simp [Reg.offset] at h <;> omega
  | _ => simp [Reg.offset] at h

/-- Settles O53: the offset is mapped, and its register ignores writes. -/
theorem readOnlyWritesIgnored : Obligations.ReadOnlyWritesIgnored := by
  intro s off v hword hro
  obtain ⟨r, hr⟩ := regAt_mapped hword (by omega)
  obtain rfl := offset_of_regAt hr
  rw [hostAccess_write_reg, writeMapped_readOnly s v hro]
  rfl

/-- Settles O43: bits [1] and [2] of the written word select what is cleared. -/
theorem statusWriteClears : Obligations.StatusWriteClears := by
  intro s v
  refine (hostAccess_write_reg s .status v).trans ?_
  simp only [writeMapped, andThen_next, State.clearStatus, State.respond, getLsbD_eq_decide_div,
    and_not_decide, decide_eq_true_eq, Nat.pow_one, Nat.reducePow]

/-- Settles O44: CTRL is not under the busy rule, ORC_OFF is. -/
theorem ctrlAndOrcOffWrites : Obligations.CtrlAndOrcOffWrites := by
  intro s v
  refine ⟨(hostAccess_write_reg s .ctrl v).trans ?_,
    fun hidle => (hostAccess_write_reg s .orcOff v).trans ?_⟩
  · simp only [writeMapped, andThen_next, State.respond, getLsbD_eq_decide_div, Nat.pow_zero,
      Nat.div_one]
  · simp [writeMapped, State.whenIdle, hidle, State.respond]

/-- Settles O56: each clause names a register by its offset and its value by its fields. -/
theorem registerReadReturns : Obligations.RegisterReadReturns := by
  intro s off v hfree hreg
  have hnamed : ∃ r : Reg, off = r.offset ∧ v = s.regValue r := by
    rcases hreg with ⟨ho, hv⟩ | ⟨ho, hv⟩ | ⟨ho, hv⟩ | ⟨ho, hv⟩ | ⟨ho, hv⟩ | ⟨ho, hv⟩ | ⟨ho, hv⟩
      | ⟨ho, hv⟩ | ⟨ho, hv⟩ | ⟨ho, hv⟩ | ⟨ho, hv⟩ | ⟨ho, hv⟩ | ⟨ho, hv⟩ | ⟨ho, hv⟩ | ⟨ho, hv⟩
      | ⟨ho, hv⟩ | ⟨ho, hv⟩ | ⟨ho, hv⟩ | ⟨i, ⟨ho, hv⟩ | ⟨ho, hv⟩ | ⟨ho, hv⟩ | ⟨ho, hv⟩⟩
    · exact ⟨.cmd, ho, hv⟩
    · exact ⟨.status, ho, BitVec.eq_of_toNat_eq (hv.trans s.status.toWord_toNat.symm)⟩
    · exact ⟨.ctrl, ho, BitVec.eq_of_toNat_eq (hv.trans (bit0_toNat _).symm)⟩
    · exact ⟨.bufLen, ho, hv⟩
    · exact ⟨.orcOff, ho, hv⟩
    · exact ⟨.matchRes, ho, BitVec.eq_of_toNat_eq (hv.trans (bit0_toNat _).symm)⟩
    · exact ⟨.msglenRes, ho, hv⟩
    · exact ⟨.summary, ho, BitVec.eq_of_toNat_eq (hv.trans s.summary.toWord_toNat.symm)⟩
    · exact ⟨.sumDestOff, ho, hv⟩
    · exact ⟨.fieldCount, ho, eq_setWidth_of_toNat_eq (by decide) hv⟩
    · exact ⟨.cursor, ho, hv⟩
    · exact ⟨.dlenRd, ho, eq_setWidth_of_toNat_eq (by decide) hv⟩
    · exact ⟨.blkStart, ho, hv⟩
    · exact ⟨.blkInfo, ho, BitVec.eq_of_toNat_eq (hv.trans s.block.infoWord_toNat.symm)⟩
    · exact ⟨.blkCounts, ho, BitVec.eq_of_toNat_eq (hv.trans s.block.countsWord_toNat.symm)⟩
    · exact ⟨.viewSel, ho, hv⟩
    · exact ⟨.viewData, ho, hv⟩
    · exact ⟨.id, ho, hv⟩
    · exact ⟨.slot i .kind, ho, eq_setWidth_of_toNat_eq (by decide) hv⟩
    · exact ⟨.slot i .start, ho, hv⟩
    · exact ⟨.slot i .len, ho, hv⟩
    · exact ⟨.slot i .value, ho, hv⟩
  obtain ⟨r, rfl, rfl⟩ := hnamed
  exact hostAccess_read_reg (hfree.imp_right isResult_eq_false_of_offset)

end Sys2Proof.Machine
end

section
/-! SUPPORT. The invariant, part by part: what each update of the state, each host access and each phase but
HDR and BODY does to it. -/

namespace Sys2Proof.Machine

/-! ### The parts of the invariant

Each part speaks of a few fields only. An update that leaves them alone keeps the part by definition, so
only the parts an update touches have a lemma. -/

/-- An error code is one of the five (R291). -/
theorem ErrorKind.code_range (e : ErrorKind) : 1 ≤ e.code.toNat ∧ e.code.toNat ≤ 5 := by
  cases e <;> decide

/-- A running engine that keeps STATUS and does not go idle keeps what STATUS promises. -/
theorem State.statusInv_of_running {s t : State} (hs : s.StatusInv) (hbusy : s.status.busy = true)
    (hstatus : t.status = s.status) (hphase : t.phase ≠ .idle) : t.StatusInv := by
  obtain ⟨-, hdone, hclear, hcode, hop⟩ := hs
  simp only [State.StatusInv, hstatus, hphase, hbusy, false_iff]
  exact ⟨by simp, fun _ => hdone hbusy, hclear, hcode, hop⟩

/-- Starting a command sets BUSY and clears DONE, and keeps the recorded error (R294). -/
theorem State.statusInv_accept {s : State} {op : Nibble} {p : Phase} (hs : s.StatusInv)
    (hop : op.toNat ≤ 3) (hp : p ≠ .idle) : (s.accept op p).StatusInv := by
  obtain ⟨-, -, hclear, hcode, -⟩ := hs
  simp only [State.StatusInv, State.accept_phase, State.accept_status, hp, false_iff]
  exact ⟨by simp, fun _ => trivial, hclear, hcode, hop⟩

/-- An idle engine promises nothing of a phase. -/
theorem State.phaseInv_of_idle {s : State} (h : s.phase = .idle) : s.PhaseInv := by
  simp [State.PhaseInv, h]

/-- EXEC promises that MATCH or MSGLEN is running (R36). -/
theorem State.phaseInv_of_exec {s : State} (h : s.phase = .exec)
    (hop : s.status.lastOp = 1#4 ∨ s.status.lastOp = 2#4) : s.PhaseInv := by
  simp [State.PhaseInv, h, hop]

/-- FINISH promises that some command is running (R36). -/
theorem State.phaseInv_of_finish {s : State} (h : s.phase = .finish)
    (hop : 1 ≤ s.status.lastOp.toNat) : s.PhaseInv := by
  simp [State.PhaseInv, h, hop]

/-- CUR before the micro-op at this place, if there is one (R281). -/
abbrev cursorAt (p u : BitVec 3) : Option Nat :=
  cursorTable[p.toNat]?.bind fun l => l[u.toNat]?

/-- The most records before the micro-op at this place (R280). -/
abbrev recordBound (p u : BitVec 3) : Nat :=
  (recordTable[p.toNat]?.bind fun l => l[u.toNat]?).getD 0

/-- BODY promises a place of the tcode's program (R38, R244, R281). -/
theorem State.phaseInv_of_body {s : State} (h : s.phase = .body) (hop : s.status.lastOp = 3#4)
    (hlen : headerMinimum ≤ s.bufLen.toNat) (hvalid : s.summary.valid = true)
    (htype : s.summary.hasType = true) (htcode : s.summary.tcode = s.tcodeR)
    (hprog : s.prog = progSel s.tcodeR) (hcur : cursorAt s.prog s.upc = some s.cur.toNat)
    (hcount : s.fieldCount.toNat ≤ recordBound s.prog s.upc) : s.PhaseInv := by
  refine ⟨?_, ?_, fun _ => hlen,
    fun _ => ⟨hop, hvalid, htype, htcode, hprog, hcur, hcount⟩, ?_⟩ <;> simp [h]

/-- Emit fills the next slot with a legal kind and leaves the others, with detail; without, it changes
nothing (R200). -/
theorem State.recordsInv_emit {s : State} {k : Nibble} {a n v : Word} (hs : s.RecordsInv)
    (hcount : s.fieldCount.toNat ≤ 6) (hk : 1 ≤ k.toNat ∧ k.toNat ≤ 10) :
    (s.emit k a n v).RecordsInv := by
  cases hd : s.detailR with
  | false => rwa [State.emit_of_summaryOnly hd]
  | true =>
    obtain ⟨-, hcur, hslots⟩ := hs
    have hnext : (s.fieldCount + 1#4).toNat = s.fieldCount.toNat + 1 := by
      rw [BitVec.toNat_add]
      exact Nat.mod_eq_of_lt (by simp; omega)
    rw [State.emit_of_detail hd]
    refine ⟨by simp only [hnext]; omega, hcur, fun i => ?_⟩
    obtain ⟨hunused, hused⟩ := hslots i
    simp only [hnext, Fin.getElem_fin, Vector.getElem_setIfInBounds]
    by_cases hi : s.fieldCount.toNat = i.val
    · simp only [hi, if_true]
      exact ⟨by omega, fun _ => hk⟩
    · simp only [hi, if_false]
      exact ⟨fun h => hunused (by omega), fun h => hused (by omega)⟩

/-- Emit counts at most one record. -/
theorem State.emit_fieldCount_le (s : State) (k : Nibble) (a n v : Word) :
    (s.emit k a n v).fieldCount.toNat ≤ s.fieldCount.toNat + 1 := by
  rw [State.emit_fieldCount]
  split
  · rw [BitVec.toNat_add]
    exact Nat.mod_le _ _
  · omega

/-! ### Updates that keep the invariant -/

/-- Recording an error keeps the invariant (R293). -/
theorem State.inv_raise {s : State} (e : ErrorKind) (h : s.Inv) : (s.raise e).Inv := by
  obtain ⟨hconfig, hbuffer, ⟨hidle, hdone, -, hcode, hop⟩, hrest⟩ := h
  refine ⟨hconfig, hbuffer, ⟨hidle, hdone, by simp, fun _ => ?_, hop⟩, hrest⟩
  cases herr : s.status.err with
  | false => simpa [herr] using e.code_range
  | true => simpa [herr] using hcode herr

/-- A STATUS write keeps the invariant: ERR and ERRCODE are cleared together (R301). -/
theorem State.inv_clearStatus {s : State} (v : Word) (h : s.Inv) : (s.clearStatus v).Inv := by
  obtain ⟨hconfig, hbuffer, ⟨hidle, hdone, hclear, hcode, hop⟩, hrest⟩ := h
  refine ⟨hconfig, hbuffer, ⟨hidle, fun hbusy => ?_, ?_, ?_, hop⟩, hrest⟩
  · simp [hdone hbusy]
  all_goals
    simp only [State.clearStatus_status]
    cases v.getLsbD 2
  · simpa using hclear
  · simp
  · simpa using hcode
  · simp

/-- No record, no slot in use (R61). -/
theorem State.reset_recordsInv : State.reset.RecordsInv := by decide

/-- A cleared summary has no type and no destination (R61). -/
theorem State.reset_summaryInv : State.reset.SummaryInv := by decide

/-- A cleared block descriptor agrees with any message (R61, R241). -/
theorem State.blockInv_zero {s : State} (h : s.block = .zero) : s.BlockInv := by
  simp [State.BlockInv, h, Block.zero]

/-- Reset needs of the state before it only what it keeps: the parameter and the ROM (R330). -/
theorem State.inv_afterReset {s : State} (h : s.ConfigInv) : s.afterReset.Inv :=
  have hstatus : State.reset.StatusInv := by decide
  have hview : State.reset.ViewInv := by decide
  ⟨h, ⟨Memory.wf_nil _, Nat.zero_le _⟩, hstatus, phaseInv_of_idle rfl, reset_recordsInv,
    reset_summaryInv, blockInv_zero rfl, hview⟩

/-- Starting MATCH or MSGLEN keeps the invariant (R294). -/
theorem State.inv_accept_exec {s : State} {op : Nibble} (h : s.Inv) (hop : op = 1#4 ∨ op = 2#4) :
    (s.accept op .exec).Inv := by
  obtain ⟨hconfig, hbuffer, hstatus, -, hrest⟩ := h
  have hle : op.toNat ≤ 3 := by
    rcases hop with rfl | rfl <;> decide
  exact ⟨hconfig, hbuffer, statusInv_accept hstatus hle nofun, phaseInv_of_exec rfl hop, hrest⟩

/-- Starting DECODE or DECODE.S keeps the invariant: Init leaves nothing to agree with (R240, R241). -/
theorem State.inv_start_decode {s : State} (detail : Bool) (h : s.Inv) :
    ({ s.accept 3#4 .gate with detailR := detail }).initDecode.Inv := by
  obtain ⟨hconfig, hbuffer, hstatus, -, -, -, -, hview⟩ := h
  exact ⟨hconfig, hbuffer, statusInv_accept hstatus (by decide) nofun,
    by simp [PhaseInv, Summary.zero], reset_recordsInv, reset_summaryInv, blockInv_zero rfl, hview⟩

/-- A running engine may go to FINISH from any phase. -/
theorem State.inv_finish {s : State} (h : s.Inv) (hbusy : s.status.busy = true)
    (hop : 1 ≤ s.status.lastOp.toNat) : ({ s with phase := .finish }).Inv := by
  obtain ⟨hconfig, hbuffer, hstatus, -, hrest⟩ := h
  exact ⟨hconfig, hbuffer, statusInv_of_running hstatus hbusy rfl nofun,
    phaseInv_of_finish rfl hop, hrest⟩

/-- Completing a command keeps the invariant (R303). -/
theorem State.inv_complete {s : State} (h : s.Inv) : s.complete.Inv := by
  obtain ⟨hconfig, hbuffer, ⟨-, -, hclear, hcode, hop⟩, -, hrest⟩ := h
  exact ⟨hconfig, hbuffer, ⟨by simp, by simp, hclear, hcode, hop⟩, phaseInv_of_idle rfl, hrest⟩

/-- Invalidating the block keeps the invariant (R54). -/
theorem State.inv_invalidateBlock {s : State} (h : s.Inv) : s.invalidateBlock.Inv := by
  obtain ⟨hconfig, hbuffer, hstatus, hphase, hrecords, hsummary, ⟨hwords, hbytes, -⟩, hview⟩ := h
  exact ⟨hconfig, hbuffer, hstatus, hphase, hrecords, hsummary, ⟨hwords, hbytes, by simp⟩, hview⟩

/-! ### Host accesses keep the invariant -/

/-- The busy rule: E_BUSY keeps the invariant, so only the idle effect is to be looked at (R294). -/
theorem State.inv_whenIdle {s t : State} {effect : Res State} (h : s.Inv)
    (hidle : s.status.busy = false → effect = .next t → t.Inv) (ht : s.whenIdle effect = .next t) :
    t.Inv := by
  rcases State.whenIdle_eq_next ht with ⟨-, rfl⟩ | ⟨hbusy, heff⟩
  · exact inv_raise .busy h
  · exact hidle hbusy heff

/-! What each command starts (R160, R180, R240). -/

theorem exec_matchSig (s : State) :
    exec .matchSig s = s.command fun s => s.accept 1#4 .exec := rfl

theorem exec_msglen (s : State) : exec .msglen s = s.command fun s => s.accept 2#4 .exec := rfl

theorem exec_decode (s : State) :
    exec .decode s
      = s.command fun s => ({ s.accept 3#4 .gate with detailR := true }).initDecode := rfl

theorem exec_decodeS (s : State) :
    exec .decodeS s
      = s.command fun s => ({ s.accept 3#4 .gate with detailR := false }).initDecode := rfl

/-- A command is dropped with E_BUSY or started (R294). -/
theorem State.inv_start {s t : State} {start : State → State} (h : s.Inv)
    (hstart : (start s).Inv) (ht : s.command start = .next t) : t.Inv := by
  rcases State.command_eq_next ht with ⟨-, rfl⟩ | ⟨-, rfl⟩
  · exact inv_raise .busy h
  · exact hstart

/-- Each of the four commands keeps the invariant, accepted or dropped. -/
theorem State.inv_command {s t : State} {i : Instr} (h : s.Inv)
    (hi : i = .matchSig ∨ i = .msglen ∨ i = .decode ∨ i = .decodeS) (ht : exec i s = .next t) :
    t.Inv := by
  rcases hi with rfl | rfl | rfl | rfl
  · exact inv_start h (inv_accept_exec h (.inl rfl)) (exec_matchSig s ▸ ht)
  · exact inv_start h (inv_accept_exec h (.inr rfl)) (exec_msglen s ▸ ht)
  · exact inv_start h (inv_start_decode true h) (exec_decode s ▸ ht)
  · exact inv_start h (inv_start_decode false h) (exec_decodeS s ▸ ht)

/-- A reserved OP only records E_BADCMD (R292). -/
theorem State.inv_writeCmd {s t : State} {v : Word} (h : s.Inv) (ht : writeCmd s v = .next t) :
    t.Inv := by
  unfold writeCmd at ht
  split at ht
  · next i hi => exact inv_command h (decode_cmd_cases hi) ht
  · refine inv_whenIdle h (fun _ heff => ?_) ht
    cases heff
    exact inv_raise .badCmd h

/-- An accepted BUF_LEN is within BUF_CAP, and no block is valid under it (R45, R54). -/
theorem State.inv_writeBufLen {s t : State} {v : Word} (h : s.Inv)
    (ht : writeBufLen s v = .next t) : t.Inv := by
  refine inv_whenIdle h (fun hbusy heff => ?_) ht
  split at heff
  · cases heff
    exact inv_raise .bufLen h
  · next hcap =>
    cases heff
    obtain ⟨hconfig, ⟨hwf, -⟩, hstatus, -, hrecords, hsummary, ⟨hwords, hbytes, -⟩, hview⟩ := h
    have ⟨hidle, _⟩ := hstatus
    exact ⟨hconfig, ⟨hwf, Nat.le_of_not_lt hcap⟩, hstatus, phaseInv_of_idle (hidle.2 hbusy),
      hrecords, hsummary, ⟨hwords, hbytes, by simp⟩, hview⟩

/-- The VIEW_SEL write stores MODE and INDEX only, whatever it latches (R55, R272). -/
theorem State.inv_setView {s : State} (v data : Word) (h : s.Inv) :
    ({ s with viewSel := v &&& 0x8000FFFF#32, viewData := data }).Inv := by
  obtain ⟨hconfig, hbuffer, hstatus, hphase, hrecords, hsummary, hblock, -⟩ := h
  refine ⟨hconfig, hbuffer, hstatus, hphase, hrecords, hsummary, hblock, ?_⟩
  have hmask : 0x8000FFFF#32 &&& 0x7FFF0000#32 = 0#32 := by decide
  simp only [ViewInv, BitVec.and_assoc, hmask, BitVec.and_zero]

/-- A VIEW_SEL write latches an element, or 0 with E_VIEW (R272, R297). -/
theorem State.inv_writeViewSel {s t : State} {v : Word} (h : s.Inv)
    (ht : writeViewSel s v = .next t) : t.Inv := by
  refine inv_whenIdle h (fun _ heff => ?_) ht
  simp only at heff
  split at heff
  · split at heff
    all_goals
      obtain ⟨x, -, hx⟩ := withRead_next heff
      cases hx
      exact inv_setView v _ h
  · cases heff
    exact inv_raise .view (inv_setView v _ h)

/-- Every register write keeps the invariant. -/
theorem State.inv_writeMapped {s t : State} {v : Word} {r : Reg} (h : s.Inv)
    (ht : writeMapped s v r = .next t) : t.Inv := by
  cases r with
  | cmd => exact inv_writeCmd h ht
  | status => cases ht; exact inv_clearStatus v h
  | ctrl => cases ht; exact h
  | bufLen => exact inv_writeBufLen h ht
  | orcOff => exact inv_whenIdle h (fun _ heff => by cases heff; exact h) ht
  | viewSel => exact inv_writeViewSel h ht
  | _ => cases ht; exact h

/-- A REG write is one register's write, or a bus error that changes nothing (R82). -/
theorem State.inv_writeReg {s t : State} {off : Nat} {size : Size} {v : Word} (h : s.Inv)
    (ht : writeReg s off size v = .next t) : t.Inv := by
  unfold writeReg at ht
  split at ht
  · obtain ⟨u, hu, hut⟩ := andThen_eq_next ht
    cases hut
    exact inv_writeMapped (t := u) h hu
  · cases ht
    exact h

/-- An admitted BUF write ends inside BUF_CAP (R83, R84). -/
theorem storedBytes_fit {s : State} {off : Nat} {size : Size} (v : Word)
    (h : bufAdmits s off size = true) : off + (storedBytes v size).length ≤ s.bufCap := by
  cases size with
  | byte => exact of_decide_eq_true h
  | word =>
    simp only [bufAdmits, Bool.and_eq_true, decide_eq_true_eq] at h
    exact h.2

/-- A BUF write keeps the canonical form and invalidates the block (R54, R84). -/
theorem State.inv_writeBuf {s t : State} {off : Nat} {size : Size} {v : Word} (h : s.Inv)
    (ht : writeBuf s off size v = .next t) : t.Inv := by
  unfold writeBuf at ht
  split at ht
  · next hadmit =>
    obtain ⟨u, hu, hut⟩ := andThen_eq_next ht
    cases hut
    refine inv_whenIdle (t := u) h (fun _ heff => ?_) hu
    cases heff
    obtain ⟨hconfig, ⟨hwf, hlen⟩, hrest⟩ := inv_invalidateBlock h
    exact ⟨hconfig, ⟨Memory.wf_writeBytes hwf (storedBytes_fit v hadmit), hlen⟩, hrest⟩
  · cases ht
    exact h

/-- A REG read changes only the model's own fields (R91). -/
theorem State.inv_readReg {s t : State} {off : Nat} {size : Size} (h : s.Inv)
    (ht : readReg s off size = .next t) : t.Inv := by
  unfold readReg at ht
  split at ht
  · split at ht <;> cases ht <;> exact h
  · cases ht
    exact h

/-- A BUF read changes only the model's own fields (R91). -/
theorem State.inv_readBuf {s t : State} {off : Nat} {size : Size} (h : s.Inv)
    (ht : readBuf s off size = .next t) : t.Inv := by
  unfold readBuf at ht
  split at ht
  · split at ht
    all_goals
      obtain ⟨x, -, hx⟩ := withRead_next ht
      cases hx
      exact h
  · cases ht
    exact h

/-- Every host access keeps the invariant. -/
theorem State.inv_hostAccess {s t : State} {a : Access} (h : s.Inv)
    (ht : hostAccess s a = .next t) : t.Inv := by
  cases a with
  | read space off size =>
    cases space with
    | reg => exact inv_readReg h ht
    | buf => exact inv_readBuf h ht
  | write space off size v =>
    cases space with
    | reg => exact inv_writeReg h ht
    | buf => exact inv_writeBuf h ht

/-! ### EXEC, GATE and FINISH keep the invariant -/

/-- MATCH writes its result and goes to FINISH (R160). -/
theorem State.inv_matchPhase {s t : State} (h : s.Inv) (hbusy : s.status.busy = true)
    (hop : 1 ≤ s.status.lastOp.toNat) (ht : matchPhase s = .next t) : t.Inv := by
  unfold matchPhase at ht
  split at ht
  · obtain ⟨d, -, ht⟩ := withRead_next ht
    obtain ⟨b2, -, ht⟩ := withRead_next ht
    obtain ⟨b3, -, ht⟩ := withRead_next ht
    cases ht
    exact inv_finish h hbusy hop
  · cases ht
    exact inv_finish h hbusy hop

/-- MSGLEN writes its result, or records E_ORC_SHORT, and goes to FINISH (R180, R295). -/
theorem State.inv_msglenPhase {s t : State} (h : s.Inv) (hbusy : s.status.busy = true)
    (hop : 1 ≤ s.status.lastOp.toNat) (ht : msglenPhase s = .next t) : t.Inv := by
  unfold msglenPhase at ht
  simp only at ht
  split at ht
  · obtain ⟨b, -, ht⟩ := withRead_next ht
    split at ht
    · obtain ⟨n, -, ht⟩ := withRead_next ht
      cases ht
      exact inv_finish h hbusy hop
    · cases ht
      exact inv_finish h hbusy hop
  · cases ht
    exact inv_raise .orcShort (inv_finish h hbusy hop)

/-- EXEC keeps the invariant. -/
theorem State.inv_execPhase {s t : State} (h : s.Inv) (hbusy : s.status.busy = true)
    (ht : execPhase s = .next t) : t.Inv := by
  unfold execPhase at ht
  split at ht
  · next hop => exact inv_matchPhase h hbusy (by omega) ht
  · next hop => exact inv_msglenPhase h hbusy (by omega) ht
  · cases ht

/-- GATE sets SUM_VALID, and goes on to HDR only with the header minimum (R242). -/
theorem State.inv_gatePhase {s t : State} (h : s.Inv) (hbusy : s.status.busy = true)
    (hgate : s.phase = .gate) (ht : gatePhase s = .next t) : t.Inv := by
  obtain ⟨hconfig, hbuffer, hstatus, ⟨-, hfresh, -⟩, hrecords, -, hblock, hview⟩ := h
  obtain ⟨hop, hcur, hcount, hsummary, hdest⟩ := hfresh (.inl hgate)
  cases ht
  refine ⟨hconfig, hbuffer, statusInv_of_running hstatus hbusy rfl ?_, ?_, hrecords, ?_, hblock,
    hview⟩
  · simp only
    split <;> decide
  · by_cases hlen : s.bufLen.toNat < headerMinimum
    · exact phaseInv_of_finish (if_pos hlen) (by simp [hop])
    · simp [PhaseInv, hlen, hop, hcur, hcount, hsummary, hdest, Nat.le_of_not_lt hlen]
  · simp [SummaryInv, hsummary, hdest, Summary.zero]

/-- FINISH copies working registers the invariant does not speak of, and completes (R246, R303). -/
theorem State.inv_finishPhase {s t : State} (h : s.Inv) (ht : finishPhase s = .next t) : t.Inv := by
  cases ht
  split <;> exact inv_complete h

end Sys2Proof.Machine
end

section
/-! SUPPORT. What a micro-op of a program can do, once for all of them, and what it keeps (42_field_cursor.md
R200 to R210). -/

namespace Sys2Proof

/-! ### The micro-ops of a program -/

/-- The micro-ops a program is made of before its END (R136, R250). -/
def Instr.isFieldOp : Instr → Bool
  | .u16 _ | .u32 _ | .rcode | .skip _ | .doff | .dlen | .block => true
  | _ => false

/-- How far a micro-op of a program moves the cursor (R202, R204 to R210). -/
def Instr.cursorStep : Instr → Nat
  | .u16 _ => 2
  | .u32 _ => 4
  | .rcode => 1
  | .skip n => n.toNat
  | .doff => 6
  | .dlen => 2
  | _ => 0

/-- The most records a micro-op of a program reports (R280). -/
def Instr.maxRecords : Instr → Nat
  | .u16 _ | .u32 _ | .rcode | .doff | .dlen | .block => 1
  | _ => 0

end Sys2Proof

namespace Sys2Proof.Machine

/-- What a micro-op of a program leaves: the cursor moved by its width, and either nothing reported, or one
record of a legal kind, or the record and the descriptor of a whole block at the cursor (R200 to R210). -/
inductive FieldStep (i : Instr) (s : State) : State → Prop
  | quiet (d : Half) :
      FieldStep i s { s with cur := s.cur + BitVec.ofNat 32 i.cursorStep, dlen := d }
  | report (k : Nibble) (a n v : Word) (d : Half) (hk : 1 ≤ k.toNat ∧ k.toNat ≤ 10)
      (hi : i.maxRecords = 1) :
      FieldStep i s { s.emit k a n v with
        cur := s.cur + BitVec.ofNat 32 i.cursorStep, dlen := d }
  | block (n : Word) (hi : i = .block) (hfits : fits s.bufLen s.cur s.dlen.toNat = true) :
      FieldStep i s { s.emit kindDataBlock s.cur n n with block := .describe s.cur s.dlen }

/-- A guarded read leaves one of two states (R201). -/
theorem fieldStep_of_guarded {i : Instr} {s t u : State} {α : Type} {guard : Bool}
    {r : Except Fault α} {f : α → State} (hf : ∀ v, FieldStep i s (f v)) (hu : FieldStep i s u)
    (ht : (if guard then withRead r fun v => .next (f v) else .next u) = .next t) :
    FieldStep i s t := by
  split at ht
  · obtain ⟨v, -, hv⟩ := withRead_next ht
    cases hv
    exact hf v
  · cases ht
    exact hu

/-- DOFF passes two bytes and then the address's four: six in all (R208). -/
theorem advance_two_four (s : State) :
    (s.advance 2).advance 4 = { s with cur := s.cur + BitVec.ofNat 32 (Instr.cursorStep .doff) } := by
  have hsum : s.cur + 2#32 + 4#32 = s.cur + 6#32 := by
    rw [BitVec.add_assoc]
    rfl
  simp [State.advance, Instr.cursorStep, hsum]

/-- Without detail a whole block is neither reported nor described (R210). -/
theorem execBlock_of_summaryOnly {s : State} (hd : s.detailR = false) : execBlock s = .next s := by
  unfold execBlock
  rw [State.emit_of_summaryOnly hd, hd]
  split <;> rfl

/-- A micro-op of a program that answers has done one of these. -/
theorem fieldStep_of_exec {s t : State} {i : Instr} (hi : i.isFieldOp = true)
    (hwf : i.wellFormed = true) (ht : exec i s = .next t) : FieldStep i s t := by
  cases i with
  | u16 kind =>
    obtain rfl : kind = 5#4 := eq_of_beq hwf
    simp only [exec, execU16] at ht
    exact fieldStep_of_guarded (fun v => .report _ _ _ _ _ (by decide) rfl) (.quiet _) ht
  | u32 kind =>
    obtain rfl : kind = 7#4 := eq_of_beq hwf
    simp only [exec, execU32] at ht
    exact fieldStep_of_guarded (fun v => .report _ _ _ _ _ (by decide) rfl) (.quiet _) ht
  | rcode =>
    simp only [exec, execRcode] at ht
    exact fieldStep_of_guarded (fun v => .report _ _ _ _ _ (by decide) rfl) (.quiet _) ht
  | skip n =>
    cases ht
    exact .quiet _
  | doff =>
    simp only [exec, execDoff] at ht
    refine fieldStep_of_guarded (fun v => ?_) ?_ ht
    · change FieldStep _ s (((s.advance 2).advance 4).emit kindDestOffset (s.cur + 2#32) 4#32 v)
      rw [advance_two_four]
      exact .report _ _ _ _ _ (by decide) rfl
    · rw [advance_two_four]
      exact .quiet _
  | dlen =>
    simp only [exec, execDlen] at ht
    exact fieldStep_of_guarded (fun v => .report _ _ _ _ _ (by decide) rfl) (.quiet _) ht
  | block =>
    have hquiet : FieldStep .block s s := by
      simpa [Instr.cursorStep] using FieldStep.quiet (i := .block) (s := s) s.dlen
    cases hd : s.detailR with
    | false =>
      cases (execBlock_of_summaryOnly hd).symm.trans ht
      exact hquiet
    | true =>
      simp only [exec, execBlock, hd, if_true] at ht
      split at ht
      · next hfits =>
        cases ht
        exact .block _ rfl hfits
      · cases ht
        exact hquiet
  | _ => cases hi

/-- A micro-op of a program moves the cursor by its width. -/
theorem FieldStep.cur_eq {i : Instr} {s t : State} (h : FieldStep i s t) :
    t.cur = s.cur + BitVec.ofNat 32 i.cursorStep := by
  cases h with
  | quiet => rfl
  | report => rfl
  | block n hi => simp [hi, Instr.cursorStep]

/-- It counts no more records than it may report. -/
theorem FieldStep.fieldCount_le {i : Instr} {s t : State} (h : FieldStep i s t) :
    t.fieldCount.toNat ≤ s.fieldCount.toNat + i.maxRecords := by
  cases h with
  | quiet => exact Nat.le_add_right _ _
  | report k a n v d hk hi =>
    rw [hi]
    exact State.emit_fieldCount_le s k a n v
  | block n hi =>
    rw [hi]
    exact State.emit_fieldCount_le s kindDataBlock s.cur n n

/-- With a free slot and a cursor of at most 16 after it, it keeps what the records promise. -/
theorem FieldStep.recordsInv {i : Instr} {s t : State} (h : FieldStep i s t)
    (hs : s.RecordsInv) (hcount : s.fieldCount.toNat + i.maxRecords ≤ 7) (hcur : t.cur.toNat ≤ 16) :
    t.RecordsInv := by
  cases h with
  | quiet =>
    obtain ⟨hle, -, hslots⟩ := hs
    exact ⟨hle, hcur, hslots⟩
  | report k a n v d hk hi =>
    obtain ⟨hle, -, hslots⟩ := State.recordsInv_emit (a := a) (n := n) (v := v) hs (by omega) hk
    exact ⟨hle, hcur, hslots⟩
  | block n hi =>
    subst hi
    have hfree : s.fieldCount.toNat + 1 ≤ 7 := hcount
    exact State.recordsInv_emit hs (by omega) (by decide)

/-- A whole block at offset 16 lies inside the message; no other micro-op touches the descriptor. -/
theorem FieldStep.blockInv {i : Instr} {s t : State} (h : FieldStep i s t) (hs : s.BlockInv)
    (hstart : i = .block → s.cur = 16#32) : t.BlockInv := by
  cases h with
  | quiet => exact hs
  | report => exact hs
  | block n hi hfits =>
    have hcur := hstart hi
    have hinside : 16 + s.dlen.toNat ≤ s.bufLen.toNat := by
      simpa [fits, hcur] using hfits
    refine ⟨?_, rfl, fun _ => ⟨hcur, hinside⟩⟩
    simp only [Block.describe, BitVec.toNat_ofNat]
    omega

/-- It changes nothing else. -/
theorem FieldStep.frame {i : Instr} {s t : State} (h : FieldStep i s t) :
    t = { s with
      cur := t.cur, dlen := t.dlen, fields := t.fields, fieldCount := t.fieldCount
      block := t.block } := by
  cases h <;> rfl

end Sys2Proof.Machine
end

section
/-! SUPPORT. BODY and HDR keep the invariant, by the ROM's agreement with the tables of cursors and records;
and the statements about reset and about every step. -/

namespace Sys2Proof.Machine

/-! ### BODY keeps the invariant -/

/-- A micro-op at this place agrees with the tables of cursors and records: before END it is a field's,
moves the cursor to where the next one starts, and reports no more than the next one's bound allows; a
block starts at 16. -/
abbrev PlaceAgrees (p u : BitVec 3) (i : Instr) : Prop :=
  i ≠ .endProg →
    i.isFieldOp = true
      ∧ cursorAt p (u + 1#3) = (cursorAt p u).map (· + i.cursorStep)
      ∧ recordBound p u + i.maxRecords ≤ recordBound p (u + 1#3)
      ∧ (i = .block → cursorAt p u = some 16)

/-- Every micro-op of the ROM of R250 agrees with its place. -/
theorem microRom_agrees (p u : BitVec 3) :
    ((microRom[p.toNat]?.bind fun l => l[u.toNat]?).all fun b =>
      (decode (.uop b)).toOption.all fun i => decide (PlaceAgrees p u i)) = true := by
  decide +revert

/-- So a micro-op fetched from that ROM agrees with the place it was fetched from. -/
theorem placeAgrees_of_fetch {s : State} {b : Byte} {i : Instr} (hrom : s.rom = microRom)
    (hb : fetchMicroOp s = .ok b) (hd : decode (.uop b) = .ok i) : PlaceAgrees s.prog s.upc i := by
  obtain ⟨l, hl, hu⟩ := fetchMicroOp_eq_ok.1 hb
  have hagrees := microRom_agrees s.prog s.upc
  rw [← hrom, hl, Option.bind_some, hu, Option.all_some, hd] at hagrees
  exact of_decide_eq_true hagrees

/-- No place has a cursor past 16 (R281). -/
theorem cursorAt_le {p u : BitVec 3} {c : Nat} (h : cursorAt p u = some c) : c ≤ 16 := by
  have hall : ∀ p u : BitVec 3, (cursorAt p u).all (decide <| · ≤ 16) = true := by decide
  simpa [h] using hall p u

/-- No place has more than 7 records (R280). -/
theorem recordBound_le (p u : BitVec 3) : recordBound p u ≤ 7 := by
  decide +revert

/-- A field's micro-op where the tables allow it keeps the invariant, UPC moving on (R245). -/
theorem FieldStep.inv_nextUpc {i : Instr} {s t : State} (h : FieldStep i s t) (hs : s.Inv)
    (hbody : s.phase = .body) (hplace : PlaceAgrees s.prog s.upc i) (hi : i ≠ .endProg) :
    ({ t with upc := t.upc + 1#3 }).Inv := by
  obtain ⟨hconfig, hbuffer, hstatus, ⟨-, -, hlen, hat, -⟩, hrecords, hsummary, hblock, hview⟩ := hs
  obtain ⟨hop, hvalid, htype, htcode, hprog, hcursor, hbound⟩ := hat hbody
  replace hcursor : cursorAt s.prog s.upc = some s.cur.toNat := hcursor
  replace hbound : s.fieldCount.toNat ≤ recordBound s.prog s.upc := hbound
  obtain ⟨-, hnext, hroom, hstart⟩ := hplace hi
  rw [hcursor, Option.map_some] at hnext
  have hmax := recordBound_le s.prog (s.upc + 1#3)
  have hcur16 := cursorAt_le hnext
  have hcur : t.cur.toNat = s.cur.toNat + i.cursorStep := by
    rw [h.cur_eq, BitVec.toNat_add, BitVec.toNat_ofNat]
    omega
  have hcount := h.fieldCount_le
  have hrecords' := h.recordsInv hrecords (by omega) (by omega)
  have hblock' := h.blockInv hblock fun hb => by
    have h16 : s.cur.toNat = 16 := Option.some.inj (hcursor.symm.trans (hstart hb))
    exact BitVec.eq_of_toNat_eq h16
  rw [h.frame] at hrecords' hblock' ⊢
  refine ⟨hconfig, hbuffer, hstatus, ?_, hrecords', hsummary, hblock', hview⟩
  exact State.phaseInv_of_body hbody hop (hlen (.inr hbody)) hvalid htype htcode hprog
    (by rw [hnext, hcur]) (by simp only; omega)

/-- BODY runs a field's micro-op, or END, which goes to FINISH (R211, R245). -/
theorem State.inv_bodyPhase {s t : State} (h : s.Inv) (hbusy : s.status.busy = true)
    (hbody : s.phase = .body) (ht : bodyPhase s = .next t) : t.Inv := by
  obtain ⟨b, i, u, hb, hd, hwf, hu, rfl⟩ := bodyPhase_eq_next ht
  have ⟨⟨_, _, hrom⟩, _, _, ⟨_, _, _, hat, _⟩, _⟩ := h
  have hplace := placeAgrees_of_fetch hrom hb hd
  by_cases hi : i = .endProg
  · subst hi
    cases hu
    obtain ⟨hop, -⟩ := hat hbody
    exact inv_finish h hbusy (by simp [hop])
  · obtain ⟨hfield, -⟩ := hplace hi
    rw [nextUpc, if_neg hi]
    exact (fieldStep_of_exec hfield hwf hu).inv_nextUpc h hbody hplace hi

/-! ### HDR keeps the invariant -/

/-- The records of the HDR micro-op, from the message's first four bytes (R203). -/
def State.emitHeader (s : State) (d : Half) (b2 b3 : Byte) : State :=
  ((s.emit (destKind d) 0#32 2#32 ((destId d).setWidth 32)).emit
    kindTlabel 2#32 1#32 ((labelOf b2).setWidth 32)).emit
    kindTcode 3#32 1#32 ((tcodeOf b3).setWidth 32)

/-- The HDR micro-op reports the header and takes the tcode of byte 3 (R203). -/
theorem exec_hdr_eq_next {s t : State} (h : exec .hdr s = .next t) :
    ∃ d b2 b3, s.memRead2 0 = .ok d ∧ s.memRead1 2 = .ok b2 ∧ s.memRead1 3 = .ok b3
      ∧ t = { s.emitHeader d b2 b3 with tcodeR := tcodeOf b3, cur := 4#32 } := by
  obtain ⟨d, hd, h⟩ := withRead_next h
  obtain ⟨b2, hb2, h⟩ := withRead_next h
  obtain ⟨b3, hb3, h⟩ := withRead_next h
  exact ⟨d, b2, b3, hd, hb2, hb3, by cases h; rfl⟩

/-- The destination record is a DEST_ID or a BOOT_ID (R203). -/
theorem destKind_range (d : Half) : 1 ≤ (destKind d).toNat ∧ (destKind d).toNat ≤ 10 := by
  unfold destKind
  split <;> decide

/-- From no records, the header's are at most three (R280). -/
theorem State.emitHeader_fieldCount_le {s : State} (d : Half) (b2 b3 : Byte)
    (hcount : s.fieldCount = 0#4) : (s.emitHeader d b2 b3).fieldCount.toNat ≤ 3 := by
  have hzero : s.fieldCount.toNat = 0 := congrArg BitVec.toNat hcount
  have h1 := s.emit_fieldCount_le (destKind d) 0#32 2#32 ((destId d).setWidth 32)
  refine (emit_fieldCount_le _ _ _ _ _).trans (Nat.succ_le_succ ?_)
  refine (emit_fieldCount_le _ _ _ _ _).trans (Nat.succ_le_succ ?_)
  omega

/-- From no records, the header's keep what the records promise (R203). -/
theorem State.recordsInv_emitHeader {s : State} (d : Half) (b2 b3 : Byte) (hs : s.RecordsInv)
    (hcount : s.fieldCount = 0#4) : (s.emitHeader d b2 b3).RecordsInv := by
  have hzero : s.fieldCount.toNat = 0 := congrArg BitVec.toNat hcount
  have h1 := s.emit_fieldCount_le (destKind d) 0#32 2#32 ((destId d).setWidth 32)
  have h2 := (s.emit (destKind d) 0#32 2#32 ((destId d).setWidth 32)).emit_fieldCount_le
    kindTlabel 2#32 1#32 ((labelOf b2).setWidth 32)
  refine recordsInv_emit (recordsInv_emit (recordsInv_emit hs ?_ (destKind_range d)) ?_ (by decide))
    ?_ (by decide)
  all_goals omega

/-- The reserved tcodes 8 to 15 have no destination_offset, and are their low bits below a top bit of 1. -/
theorem tcode_of_top_bit :
    ∀ t : Nibble, 8 ≤ t.toNat → bearsDest t = false ∧ 1#1 ++ t.extractLsb' 0 3 = t := by decide

/-- The header word's variant dispatches on its tcode, with the destination address exactly where the
layout has one (R243, R244, R262). -/
theorem exec_decodeWire (w : Word) (s : State) :
    exec (decodeWire w) s =
      if bearsDest (w.extractLsb' 4 4) then s.dispatchDest (w.extractLsb' 4 4)
      else .next (s.dispatch (w.extractLsb' 4 4)) := by
  have hlow : w.extractLsb' 4 3 = (w.extractLsb' 4 4).extractLsb' 0 3 := by
    ext k hk
    simp only [BitVec.getElem_extractLsb', BitVec.getLsbD_extractLsb', Nat.zero_add,
      Nat.lt_of_lt_of_le hk (by decide : 3 ≤ 4), decide_true, Bool.true_and]
  rw [decodeWire, hlow]
  generalize w.extractLsb' 4 4 = t
  split
  case h_9 h0 h1 h2 h3 h4 h5 h6 h7 =>
    simp only [imp_false] at h0 h1 h2 h3 h4 h5 h6 h7
    obtain ⟨hdest, ht⟩ := tcode_of_top_bit t (by omega)
    rw [hdest]
    exact congrArg (fun t => Host.Outcome.next (s.dispatch t)) ht
  all_goals
    next ht =>
    obtain ⟨-, rfl⟩ := BitVec.toNat_eq_nat.1 ht
    rfl

/-- A variant that answers dispatched on the tcode, and left SUM_DEST_OFF alone where the layout has no
destination_offset. -/
theorem exec_decodeWire_eq_next {s t : State} {w : Word} (h : exec (decodeWire w) s = .next t) :
    ∃ a, t = { s.dispatch (w.extractLsb' 4 4) with sumDestOff := a }
      ∧ (bearsDest (w.extractLsb' 4 4) = false → a = s.sumDestOff) := by
  rw [exec_decodeWire] at h
  split at h
  · next hdest =>
    obtain ⟨a, -, rfl⟩ := State.dispatchDest_eq_next h
    exact ⟨a, rfl, by simp [hdest]⟩
  · cases h
    exact ⟨s.sumDestOff, rfl, fun _ => rfl⟩

/-- Every program starts at cursor 4 with room for the three header records (R281). -/
theorem place_of_progSel :
    ∀ t : Nibble, cursorAt (progSel t) 0#3 = some 4 ∧ recordBound (progSel t) 0#3 = 3 := by decide

/-- After the dispatch of a fresh summary its bits agree with the tcode (R243, R262). -/
theorem State.summaryInv_dispatch {s : State} {t : Nibble} {a : Word}
    (hfresh : s.summary = { Summary.zero with valid := true })
    (ha : bearsDest t = false → a = 0#32) : ({ s.dispatch t with sumDestOff := a }).SummaryInv := by
  simpa [SummaryInv, hfresh, Summary.ofTcode, Summary.zero] using ha

/-- HDR reports the header and dispatches to the start of the tcode's program (R243, R244). -/
theorem State.inv_hdrPhase {s t : State} (h : s.Inv) (hbusy : s.status.busy = true)
    (hhdr : s.phase = .hdr) (ht : hdrPhase s = .next t) : t.Inv := by
  obtain ⟨hconfig, hbuffer, hstatus, ⟨-, hfresh, hlen, -⟩, hrecords, -, hblock, hview⟩ := h
  obtain ⟨hop, -, hcount, hsummary, hdest⟩ := hfresh (.inr hhdr)
  replace hsummary : s.summary = { Summary.zero with valid := true } := by
    simpa [hhdr] using hsummary
  obtain ⟨w, u, hw, hu, hvariant⟩ := hdrPhase_eq_next ht
  obtain ⟨d, b2, b3, -, -, hb3, rfl⟩ := exec_hdr_eq_next hu
  obtain ⟨a, rfl, ha⟩ := exec_decodeWire_eq_next hvariant
  clear ht hu hvariant
  rw [State.tcode_of_header hw hb3] at ha ⊢
  obtain ⟨hcursor, hbound⟩ := place_of_progSel (tcodeOf b3)
  obtain ⟨hle, -, hslots⟩ := recordsInv_emitHeader d b2 b3 hrecords hcount
  have hcur : (4#32).toNat ≤ 16 := by decide
  refine ⟨hconfig, hbuffer, statusInv_of_running hstatus hbusy rfl nofun, ?_, ⟨hle, hcur, hslots⟩,
    ?_, hblock, hview⟩
  · refine phaseInv_of_body rfl hop (hlen (.inl hhdr)) (congrArg Summary.valid hsummary) rfl rfl rfl
      hcursor ?_
    exact hbound ▸ emitHeader_fieldCount_le d b2 b3 hcount
  · exact summaryInv_dispatch hsummary (fun h => (ha h).trans hdest)

/-- Every engine turn keeps the invariant. -/
theorem State.inv_engineStep {s t : State} (h : s.Inv) (ht : engineStep s = .next t) : t.Inv := by
  rcases engineStep_eq_next ht with ⟨-, rfl⟩ | ⟨hbusy, ht⟩
  · exact h
  · unfold phaseStep at ht
    split at ht
    · cases ht
      exact h
    · exact inv_execPhase h hbusy ht
    · next hgate => exact inv_gatePhase h hbusy hgate ht
    · next hhdr => exact inv_hdrPhase h hbusy hhdr ht
    · next hbody => exact inv_bodyPhase h hbusy hbody ht
    · exact inv_finishPhase h ht

/-! ### The invariant -/

/-- Every input keeps the invariant. -/
theorem State.inv_handle {s t : State} {e : Event} (h : s.Inv) (ht : handle s e = .next t) :
    t.Inv := by
  cases e with
  | access a => exact inv_hostAccess h ht
  | engine => exact inv_engineStep h ht
  | reset =>
    cases ht
    obtain ⟨hconfig, -⟩ := h
    exact inv_afterReset hconfig

/-- Settles O12: a step is an engine turn, a host access or a reset, and each keeps the invariant. -/
theorem stepKeepsInv : Obligations.StepKeepsInv := by
  intro s t h ht
  rcases step_cases s with ⟨-, hs⟩ | ⟨e, rest, -, hs⟩ <;> rw [hs] at ht
  · exact State.inv_engineStep h ht
  · exact State.inv_handle (s := { s with agenda := rest }) h ht

/-- Settles O11: reset is the state after a reset event, and needs a BUF_CAP in range and the ROM of
R250 only. -/
theorem resetEstablishesInv : Obligations.ResetEstablishesInv :=
  State.inv_afterReset (s := State.reset) (by decide)

/-- Settles O9: every field is zero, so every register but ID reads 0. -/
theorem resetValues : Obligations.ResetValues := by
  refine ⟨rfl, rfl, rfl, rfl, rfl, rfl, rfl, fun r hr => ?_, rfl, rfl, fun a => rfl⟩
  cases r with
  | id => exact absurd rfl hr
  | slot i w => cases w <;> revert i <;> decide
  | _ => rfl

end Sys2Proof.Machine
end

section
/-! SUPPORT. Host accesses to BUF and what they answer, host reads of either space, and the `CMD` write; and
the statements about them (20_memory.md R81 to R91). -/

namespace Sys2Proof.Machine

/-! ### Reads of unwritten bytes -/

/-- A failed read of two bytes names a byte without a value. -/
theorem State.memRead2_error {s : State} {a : Nat} {f : Fault} (h : s.memRead2 a = .error f) :
    ∃ x, f = .unwrittenByte x := by
  unfold memRead2 at h
  split at h
  · cases h
  · next h0 =>
    cases h
    exact ⟨a, (memRead1_error h0).2⟩
  · next h1 =>
    cases h
    exact ⟨a + 1, (memRead1_error h1).2⟩

/-- A failed read of four bytes names a byte without a value. -/
theorem State.memRead4_error {s : State} {a : Nat} {f : Fault} (h : s.memRead4 a = .error f) :
    ∃ x, f = .unwrittenByte x := by
  unfold memRead4 at h
  split at h
  · cases h
  · next h0 =>
    cases h
    exact memRead2_error h0
  · next h1 =>
    cases h
    exact memRead2_error h1

/-- Two bytes that were read all have a value. -/
theorem State.isSome_of_memRead2 {s : State} {a k : Nat} {v : Half} (h : s.memRead2 a = .ok v)
    (hk : k < 2) : (s.buf.read? (a + k)).isSome = true := by
  obtain ⟨b0, b1, h0, h1, -⟩ := memRead2_eq_ok.1 h
  interval_cases k <;> simp [h0, h1]

/-- Four bytes that were read all have a value. -/
theorem State.isSome_of_memRead4 {s : State} {a k : Nat} {v : Word} (h : s.memRead4 a = .ok v)
    (hk : k < 4) : (s.buf.read? (a + k)).isSome = true := by
  obtain ⟨h0, h1, hlow, hhigh, -⟩ := memRead4_eq_ok.1 h
  by_cases hk2 : k < 2
  · exact isSome_of_memRead2 hlow hk2
  · obtain ⟨j, rfl⟩ : ∃ j, k = 2 + j := ⟨k - 2, by omega⟩
    rw [← Nat.add_assoc]
    exact isSome_of_memRead2 hhigh (by omega)

/-- A word with an unwritten byte cannot be read (R85, R333). -/
theorem State.memRead4_of_unwritten {s : State} {a k : Nat} (hk : k < 4)
    (hnone : s.buf.read? (a + k) = none) : ∃ x, s.memRead4 a = .error (.unwrittenByte x) := by
  cases h : s.memRead4 a with
  | ok v =>
    have hsome := isSome_of_memRead4 h hk
    simp [hnone] at hsome
  | error f =>
    obtain ⟨x, rfl⟩ := memRead4_error h
    exact ⟨x, rfl⟩

/-! ### Host reads -/

/-- An admitted one-byte read of BUF answers the byte, or faults with the read (R85). -/
theorem hostAccess_read_buf_byte {s : State} {off : Nat} (h : off < s.bufCap) :
    hostAccess s (.read .buf off .byte)
      = withRead (s.memRead1 off) fun b => .next (s.respond (.data (b.setWidth 32))) := by
  simp [hostAccess, readBuf, bufAdmits, h]

/-- An admitted word read of BUF answers the word, or faults with the read (R85). -/
theorem hostAccess_read_buf_word {s : State} {off : Nat} (hword : off % 4 = 0)
    (h : off + 4 ≤ s.bufCap) :
    hostAccess s (.read .buf off .word)
      = withRead (s.memRead4 off) fun v => .next (s.respond (.data v)) := by
  simp [hostAccess, readBuf, bufAdmits, hword, h]

/-- Settles O55: an admitted read is MemRead of its size, which faults on an unwritten byte. -/
theorem bufReadReturns : Obligations.BufReadReturns := by
  refine fun s off b w => ⟨fun hcap hb => ?_, fun hword hcap hw => ?_, fun hcap hnone => ?_,
    fun hword hcap hunwritten => ?_⟩
  · rw [hostAccess_read_buf_byte hcap, State.memRead1_eq_ok.2 hb]
    rfl
  · rw [hostAccess_read_buf_word hword hcap, hw]
    rfl
  · rw [hostAccess_read_buf_byte hcap, State.memRead1, hnone]
    rfl
  · obtain ⟨k, hk, hnone⟩ := hunwritten
    obtain ⟨a, ha⟩ := State.memRead4_of_unwritten hk hnone
    rw [hostAccess_read_buf_word hword hcap, ha]
    exact ⟨a, rfl⟩

/-- A REG read changes the model's own response and draw count only (R91). -/
theorem readReg_frame {s t : State} {off : Nat} {size : Size} (h : readReg s off size = .next t) :
    t = { s with response := t.response, draws := t.draws } := by
  unfold readReg at h
  split at h
  · split at h <;> cases h <;> rfl
  · cases h
    rfl

/-- A BUF read changes the model's own response only (R91). -/
theorem readBuf_frame {s t : State} {off : Nat} {size : Size} (h : readBuf s off size = .next t) :
    t = { s with response := t.response } := by
  unfold readBuf at h
  split at h
  · split at h
    all_goals
      obtain ⟨x, -, hx⟩ := withRead_next h
      cases hx
      rfl
  · cases h
    rfl

/-- Settles O58: a read of either space keeps the block's state. -/
theorem readsHaveNoSideEffect : Obligations.ReadsHaveNoSideEffect := by
  intro s t sp off sz h
  cases sp with
  | reg => exact readReg_frame h
  | buf =>
    have hframe := readBuf_frame h
    rw [hframe]

/-! ### Host writes -/

/-- Settles O6: offset 0 is CMD's, and the write of CMD runs what the word decodes to. -/
theorem commandWriteRunsDecoded : Obligations.CommandWriteRunsDecoded := by
  intro s rest w i hagenda hdecode
  have hstep : step s = hostAccess { s with agenda := rest } (.write .reg 0x00 .word w) := by
    rw [step, hagenda]
    rfl
  refine (hstep.trans (hostAccess_write_reg _ .cmd w)).trans ?_
  rw [writeMapped, writeCmd, hdecode]
  rfl

/-- The bytes an admitted BUF write stores are as many as its size says (R81, R84). -/
theorem length_storedBytes (v : Word) (size : Size) :
    (storedBytes v size).length = if size = .byte then 1 else 4 := by
  cases size <;> rfl

/-- An idle admitted BUF write stores its bytes, invalidates the block and answers Ok (R54, R84). -/
theorem hostAccess_write_buf {s : State} {off : Nat} {size : Size} (v : Word)
    (hidle : s.status.busy = false) (hadmit : bufAdmits s off size = true) :
    hostAccess s (.write .buf off size v)
      = .next ({ s.invalidateBlock with
          buf := s.buf.writeBytes off (storedBytes v size) }.respond .ok) := by
  simp [hostAccess, writeBuf, hadmit, State.whenIdle, hidle]

/-- A word is its two halves, and each half its two bytes, the first the most significant (R87). -/
theorem append_bytes_of_word (v : Word) :
    (v.extractLsb' 24 8 ++ v.extractLsb' 16 8 : Half)
      ++ (v.extractLsb' 8 8 ++ v.extractLsb' 0 8 : Half) = v := by
  rw [BitVec.extractLsb'_append_extractLsb'_eq_extractLsb' (rfl : 24 = 16 + 8),
    BitVec.extractLsb'_append_extractLsb'_eq_extractLsb' (rfl : 8 = 0 + 8)]
  exact BitVec.extractLsb'_append_extractLsb'

/-- MemRead(a, 4) gives back a word whose big-endian bytes stand from `a` on (R84, R87). -/
theorem State.memRead4_of_bigEndian32 {s : State} {a : Nat} {v : Word}
    (h : ∀ i, i < 4 → s.buf.read? (a + i) = (bigEndian32 v)[i]?) : s.memRead4 a = .ok v :=
  memRead4_eq_ok.2 ⟨_, _, memRead2_eq_ok.2 ⟨_, _, h 0 (by decide), h 1 (by decide), rfl⟩,
    memRead2_eq_ok.2 ⟨_, _, h 2 (by decide), h 3 (by decide), rfl⟩, (append_bytes_of_word v).symm⟩

/-- Settles O54: the memory laws of the bytes the write stores. -/
theorem bufWriteStores : Obligations.BufWriteStores := by
  intro s off sz v hidle hwf hrange
  have hadmit : bufAdmits s off sz = true := by
    rcases hrange with ⟨rfl, h⟩ | ⟨rfl, hword, h⟩
    · simp [bufAdmits, h]
    · simp [bufAdmits, hword, h]
  have hfit := storedBytes_fit v hadmit
  refine ⟨_, hostAccess_write_buf v hidle hadmit, rfl, Memory.wf_writeBytes hwf hfit, ?_, ?_, ?_⟩
  · rintro rfl
    have hlow : v.extractLsb' 0 8 = BitVec.ofNat 8 v.toNat := by
      simp [BitVec.extractLsb']
    refine State.memRead1_eq_ok.2 ?_
    rw [← hlow]
    exact Memory.read?_writeBytes_same (i := 0) hwf hfit Nat.zero_lt_one
  · rintro rfl
    exact State.memRead4_of_bigEndian32 fun i hi => Memory.read?_writeBytes_same hwf hfit hi
  · intro a ha
    rw [← length_storedBytes v sz] at ha
    exact Memory.read?_writeBytes_other hwf hfit ha

end Sys2Proof.Machine
end

section
/-! SUPPORT. What the engine's turn leaves alone, whatever the ROM holds (20_memory.md R84, 60_exceptions.md
R313), and the statement about it. -/

namespace Sys2Proof.Machine

/-- What only the host, or nothing at all, changes: BUF, BUF_LEN, ORC_OFF, CTRL, VIEW_SEL, the parameter,
the ROM, the inputs still to come and the response. -/
def State.hostSide (s : State) :=
  (s.buf, s.bufLen, s.orcOff, s.irqEn, s.viewSel, s.bufCap, s.rom, s.agenda, s.response)

/-- Two states agree on the host's side exactly when they agree on each of its fields. -/
theorem State.hostSide_eq_iff {s t : State} :
    t.hostSide = s.hostSide ↔
      t.buf = s.buf ∧ t.bufLen = s.bufLen ∧ t.orcOff = s.orcOff ∧ t.irqEn = s.irqEn
        ∧ t.viewSel = s.viewSel ∧ t.bufCap = s.bufCap ∧ t.rom = s.rom
        ∧ t.agenda = s.agenda ∧ t.response = s.response := by
  simp only [hostSide, Prod.mk.injEq]

/-- A micro-op word decodes to END, to HDR or to a micro-op of a program (R135). -/
theorem decode_uop_cases {b : Byte} {i : Instr} (h : decode (.uop b) = .ok i) :
    i = .endProg ∨ i = .hdr ∨ i.isFieldOp = true := by
  simp only [decode, decodeMicroOp] at h
  split at h
  case h_10 => cases h
  case h_3 | h_4 | h_6 =>
    cases h
    exact .inr (.inr rfl)
  all_goals
    rw [decodeNoArg] at h
    split at h <;> cases h
    simp [Instr.isFieldOp]

/-- A micro-op of a program keeps the host's side. -/
theorem FieldStep.hostSide_eq {i : Instr} {s t : State} (h : FieldStep i s t) :
    t.hostSide = s.hostSide := by
  rw [h.frame]
  rfl

/-- HDR keeps the host's side. -/
theorem hostSide_of_exec_hdr {s t : State} (h : exec .hdr s = .next t) :
    t.hostSide = s.hostSide := by
  obtain ⟨d, b2, b3, -, -, -, rfl⟩ := exec_hdr_eq_next h
  rfl

/-- BODY keeps the host's side, whatever the ROM holds. -/
theorem hostSide_of_bodyPhase {s t : State} (h : bodyPhase s = .next t) :
    t.hostSide = s.hostSide := by
  obtain ⟨b, i, u, -, hd, hwf, hu, rfl⟩ := bodyPhase_eq_next h
  have hupc : (nextUpc i u).hostSide = u.hostSide := by
    unfold nextUpc
    split <;> rfl
  rw [hupc]
  rcases decode_uop_cases hd with rfl | rfl | hi
  · cases hu
    rfl
  · exact hostSide_of_exec_hdr hu
  · exact (fieldStep_of_exec hi hwf hu).hostSide_eq

/-- HDR's phase keeps the host's side: the micro-op and the dispatch do. -/
theorem hostSide_of_hdrPhase {s t : State} (h : hdrPhase s = .next t) :
    t.hostSide = s.hostSide := by
  obtain ⟨w, u, -, hu, hvariant⟩ := hdrPhase_eq_next h
  obtain ⟨a, rfl, -⟩ := exec_decodeWire_eq_next hvariant
  exact (hostSide_of_exec_hdr hu : u.hostSide = s.hostSide)

/-- MATCH writes its result and the phase (R160). -/
theorem matchPhase_eq_next {s t : State} (h : matchPhase s = .next t) :
    ∃ b, t = { s with matchRes := b, phase := .finish } := by
  unfold matchPhase at h
  split at h
  · obtain ⟨d, -, h⟩ := withRead_next h
    obtain ⟨b2, -, h⟩ := withRead_next h
    obtain ⟨b3, -, h⟩ := withRead_next h
    cases h
    exact ⟨_, rfl⟩
  · cases h
    exact ⟨_, rfl⟩

/-- MSGLEN writes its result, or a free value with E_ORC_SHORT, and the phase (R184, R295, log 4). -/
theorem msglenPhase_eq_next {s t : State} (h : msglenPhase s = .next t) :
    (∃ n, t = s.setMsglen n)
      ∨ t = ({ s with
          msglenRes := Config.freeMsglen s.draws
          draws := s.draws + 1
          phase := .finish }).raise .orcShort := by
  unfold msglenPhase at h
  simp only at h
  split at h
  · obtain ⟨b, -, h⟩ := withRead_next h
    split at h
    · obtain ⟨n, -, h⟩ := withRead_next h
      cases h
      exact .inl ⟨_, rfl⟩
    · cases h
      exact .inl ⟨_, rfl⟩
  · cases h
    exact .inr rfl

/-- EXEC keeps the host's side. -/
theorem hostSide_of_execPhase {s t : State} (h : execPhase s = .next t) :
    t.hostSide = s.hostSide := by
  unfold execPhase at h
  split at h
  · obtain ⟨b, rfl⟩ := matchPhase_eq_next h
    rfl
  · rcases msglenPhase_eq_next h with ⟨n, rfl⟩ | rfl <;> rfl
  · cases h

/-- Every engine turn keeps the host's side. -/
theorem hostSide_of_engineStep {s t : State} (h : engineStep s = .next t) :
    t.hostSide = s.hostSide := by
  rcases engineStep_eq_next h with ⟨-, rfl⟩ | ⟨-, h⟩
  · rfl
  · unfold phaseStep at h
    split at h
    · cases h
      rfl
    · exact hostSide_of_execPhase h
    · cases h
      rfl
    · exact hostSide_of_hdrPhase h
    · exact hostSide_of_bodyPhase h
    · cases h
      split <;> rfl

/-- An idle engine keeps all its state (R313). -/
theorem engineStep_of_idle {s : State} (h : s.status.busy = false) : engineStep s = .next s := by
  simp [engineStep, h]

/-- Settles O30: an idle turn is none, and every turn keeps the host's side. -/
theorem engineTurnFrame : Obligations.EngineTurnFrame := fun _ =>
  ⟨engineStep_of_idle, fun _ h => State.hostSide_eq_iff.1 (hostSide_of_engineStep h)⟩

end Sys2Proof.Machine
end

section
/-! SUPPORT. The engine reads inside the message only: over any BUF that reads alike below BUF_LEN it does the
same (20_memory.md R86), and the statement about it. -/

namespace Sys2Proof.Machine

/-! ### The same engine over another BUF -/

/-- This engine over another BUF. -/
def State.withBuf (s : State) (m : Memory) : State := { s with buf := m }

/-- This memory reads as BUF does at every byte of the message (R86). -/
def State.SameMessage (s : State) (m : Memory) : Prop :=
  ∀ a, a < s.bufLen.toNat → m.read? a = s.buf.read? a

/-- Over BUF `m` an action does what it does over the engine's own BUF, and leaves `m` in place; a fault
or a refusal is the same one. -/
def IgnoresBuf (m : Memory) (act : State → Res State) (s : State) : Prop :=
  act (s.withBuf m) = andThen (act s) fun t => .next (t.withBuf m)

/-- The same message is still there when BUF and BUF_LEN are. -/
theorem State.SameMessage.of_hostSide {s t : State} {m : Memory} (h : s.SameMessage m)
    (ht : t.hostSide = s.hostSide) : t.SameMessage m := by
  obtain ⟨hbuf, hlen, -⟩ := hostSide_eq_iff.1 ht
  rwa [SameMessage, hbuf, hlen]

/-! ### Reads inside the message -/

/-- A byte of the message reads alike. -/
theorem State.SameMessage.memRead1 {s : State} {m : Memory} {a : Nat} (h : s.SameMessage m)
    (ha : a + 1 ≤ s.bufLen.toNat) : (s.withBuf m).memRead1 a = s.memRead1 a := by
  unfold State.memRead1
  rw [show (s.withBuf m).buf = m from rfl, h a ha]

/-- Two bytes of the message read alike. -/
theorem State.SameMessage.memRead2 {s : State} {m : Memory} {a : Nat} (h : s.SameMessage m)
    (ha : a + 2 ≤ s.bufLen.toNat) : (s.withBuf m).memRead2 a = s.memRead2 a := by
  unfold State.memRead2
  rw [h.memRead1 (by omega), h.memRead1 (by omega)]

/-- Four bytes of the message read alike. -/
theorem State.SameMessage.memRead4 {s : State} {m : Memory} {a : Nat} (h : s.SameMessage m)
    (ha : a + 4 ≤ s.bufLen.toNat) : (s.withBuf m).memRead4 a = s.memRead4 a := by
  unfold State.memRead4
  rw [h.memRead2 (by omega), h.memRead2 (by omega)]

/-- The guard admits a field exactly when it lies inside the message (R201). -/
theorem fits_iff {len cur : Word} {w : Nat} : fits len cur w = true ↔ cur.toNat + w ≤ len.toNat :=
  decide_eq_true_iff

/-! ### Sequences -/

/-- Sequencing is associative. -/
theorem andThen_assoc (r : Res State) (f g : State → Res State) :
    andThen (andThen r f) g = andThen r fun s => andThen (f s) g := by
  cases r <;> rfl

/-- Two sequences that go on alike from where the first part ends are the same. -/
theorem andThen_congr {r : Res State} {f g : State → Res State}
    (h : ∀ u, r = .next u → f u = g u) : andThen r f = andThen r g := by
  cases r with
  | next u => exact h u rfl
  | fault _ => rfl
  | refused _ => rfl

/-- Going to a next state that is built without BUF ignores it. -/
theorem ignoresBuf_next {m : Memory} {s : State} {f : State → State}
    (hf : f (s.withBuf m) = (f s).withBuf m) : IgnoresBuf m (fun s => .next (f s)) s :=
  congrArg Host.Outcome.next hf

/-- A choice made without BUF ignores the bytes past the message when each branch taken does. -/
theorem ignoresBuf_ite {m : Memory} {s : State} {guard : State → Prop} [DecidablePred guard]
    {act other : State → Res State} (hguard : guard (s.withBuf m) = guard s)
    (hact : guard s → IgnoresBuf m act s) (hother : ¬ guard s → IgnoresBuf m other s) :
    IgnoresBuf m (fun s => if guard s then act s else other s) s := by
  simp only [IgnoresBuf, hguard]
  split
  · next h => exact hact h
  · next h => exact hother h

/-- A read that gives the same over both memories, and then an action that ignores the bytes past the
message. -/
theorem ignoresBuf_withRead {α : Type} {m : Memory} {s : State} {r : State → Except Fault α}
    {act : α → State → Res State} (hr : r (s.withBuf m) = r s)
    (hact : ∀ v, r s = .ok v → IgnoresBuf m (act v) s) :
    IgnoresBuf m (fun s => withRead (r s) fun v => act v s) s := by
  simp only [IgnoresBuf, hr]
  cases h : r s with
  | ok v => exact hact v h
  | error f => rfl

/-- Two actions that each ignore the bytes past the message do so in sequence. -/
theorem ignoresBuf_andThen {m : Memory} {s : State} {act next : State → Res State}
    (hact : IgnoresBuf m act s) (hnext : ∀ u, act s = .next u → IgnoresBuf m next u) :
    IgnoresBuf m (fun s => andThen (act s) next) s := by
  rw [IgnoresBuf] at hact
  simp only [IgnoresBuf, hact, andThen_assoc, andThen_next]
  exact andThen_congr hnext

/-- A guarded read that its guard puts inside the message ignores the bytes past it (R201). -/
theorem ignoresBuf_guarded {α : Type} {m : Memory} {s : State} {guard : State → Bool}
    {r : State → Except Fault α} {f : State → α → State} {g : State → State}
    (hguard : guard (s.withBuf m) = guard s) (hr : guard s = true → r (s.withBuf m) = r s)
    (hf : ∀ v, f (s.withBuf m) v = (f s v).withBuf m) (hg : g (s.withBuf m) = (g s).withBuf m) :
    IgnoresBuf m
      (fun s => if guard s then withRead (r s) fun v => .next (f s v) else .next (g s)) s :=
  ignoresBuf_ite (congrArg (· = true) hguard)
    (fun h => ignoresBuf_withRead (hr h) fun v _ => ignoresBuf_next (hf v))
    (fun _ => ignoresBuf_next hg)

/-! ### The micro-ops and the variants -/

/-- A micro-op of a program reads under its guard, or not at all (R201, R204 to R210). -/
theorem ignoresBuf_exec_fieldOp {m : Memory} {s : State} {i : Instr} (h : s.SameMessage m)
    (hi : i.isFieldOp = true) : IgnoresBuf m (exec i) s := by
  cases i with
  | u16 kind =>
    exact ignoresBuf_guarded rfl (fun hg => h.memRead2 (fits_iff.1 hg)) (fun _ => rfl) rfl
  | u32 kind =>
    exact ignoresBuf_guarded rfl (fun hg => h.memRead4 (fits_iff.1 hg)) (fun _ => rfl) rfl
  | rcode =>
    exact ignoresBuf_guarded rfl (fun hg => h.memRead1 (fits_iff.1 hg)) (fun _ => rfl) rfl
  | skip n => rfl
  | doff =>
    exact ignoresBuf_guarded rfl (fun hg => h.memRead4 (fits_iff.1 hg)) (fun _ => rfl) rfl
  | dlen =>
    exact ignoresBuf_guarded rfl (fun hg => h.memRead2 (fits_iff.1 hg)) (fun _ => rfl) rfl
  | block =>
    exact ignoresBuf_ite rfl (fun _ => ignoresBuf_next rfl) fun _ => ignoresBuf_next rfl
  | _ => cases hi

/-- HDR reads the first four bytes, which the header minimum covers (R203, R242). -/
theorem ignoresBuf_exec_hdr {m : Memory} {s : State} (h : s.SameMessage m)
    (hlen : headerMinimum ≤ s.bufLen.toNat) : IgnoresBuf m (exec .hdr) s := by
  unfold headerMinimum at hlen
  exact ignoresBuf_withRead (h.memRead2 (by omega)) fun d _ =>
    ignoresBuf_withRead (h.memRead1 (by omega)) fun b2 _ =>
    ignoresBuf_withRead (h.memRead1 (by omega)) fun b3 _ => ignoresBuf_next rfl

/-- A variant reads the destination address at most, which the header minimum covers (R242, R243). -/
theorem ignoresBuf_exec_decodeWire {m : Memory} {s : State} (w : Word) (h : s.SameMessage m)
    (hlen : headerMinimum ≤ s.bufLen.toNat) : IgnoresBuf m (exec (decodeWire w)) s := by
  rw [funext (exec_decodeWire w)]
  exact ignoresBuf_ite rfl
    (fun _ => ignoresBuf_withRead (h.memRead4 hlen) fun a _ => ignoresBuf_next rfl)
    fun _ => ignoresBuf_next rfl

/-! ### The phases -/

/-- MATCH reads its four bytes only when they are there (R161, R162). -/
theorem ignoresBuf_matchPhase {m : Memory} {s : State} (h : s.SameMessage m) :
    IgnoresBuf m matchPhase s := by
  refine ignoresBuf_ite rfl (fun hg => ?_) fun _ => ignoresBuf_next rfl
  have hlen : 0 + 4 ≤ s.bufLen.toNat := fits_iff.1 hg
  exact ignoresBuf_withRead (h.memRead2 (by omega)) fun d _ =>
    ignoresBuf_withRead (h.memRead1 (by omega)) fun b2 _ =>
    ignoresBuf_withRead (h.memRead1 (by omega)) fun b3 _ => ignoresBuf_next rfl

/-- MSGLEN reads the tcode's byte with 4 bytes at ORC_OFF, and data_length with 14 (R181, R185). -/
theorem ignoresBuf_msglenPhase {m : Memory} {s : State} (h : s.SameMessage m) :
    IgnoresBuf m msglenPhase s := by
  refine ignoresBuf_ite rfl (fun hg => ?_) fun _ => ignoresBuf_next rfl
  obtain ⟨hoff, havail⟩ := hg
  have htcode : (s.withBuf m).memRead1 (s.orcOff.toNat + 3) = s.memRead1 (s.orcOff.toNat + 3) :=
    h.memRead1 (by omega)
  refine ignoresBuf_withRead htcode fun b _ => ?_
  refine ignoresBuf_ite rfl (fun hblock => ?_) fun _ => ignoresBuf_next rfl
  simp only [Bool.and_eq_true, decide_eq_true_eq] at hblock
  obtain ⟨-, hlen⟩ := hblock
  have hdlen : (s.withBuf m).memRead2 (s.orcOff.toNat + 12) = s.memRead2 (s.orcOff.toNat + 12) :=
    h.memRead2 (by omega)
  exact ignoresBuf_withRead hdlen fun n _ => ignoresBuf_next rfl

/-- EXEC reads inside the message only. -/
theorem ignoresBuf_execPhase {m : Memory} {s : State} (h : s.SameMessage m) :
    IgnoresBuf m execPhase s := by
  have hop : (s.withBuf m).status = s.status := rfl
  simp only [IgnoresBuf, execPhase, hop]
  split
  · exact ignoresBuf_matchPhase h
  · exact ignoresBuf_msglenPhase h
  · rfl

/-- HDR's phase reads the header word and what its micro-op and variant read, all in the header minimum
(R242, R243). -/
theorem ignoresBuf_hdrPhase {m : Memory} {s : State} (h : s.SameMessage m)
    (hlen : headerMinimum ≤ s.bufLen.toNat) : IgnoresBuf m hdrPhase s := by
  have hword : fetchHeader (s.withBuf m) = fetchHeader s :=
    h.memRead4 (Nat.le_trans (by decide) hlen)
  refine ignoresBuf_withRead hword fun w _ =>
    ignoresBuf_andThen (ignoresBuf_exec_hdr h hlen) fun u hu => ?_
  have hside := hostSide_of_exec_hdr hu
  obtain ⟨-, hbufLen, -⟩ := State.hostSide_eq_iff.1 hside
  exact ignoresBuf_exec_decodeWire w (h.of_hostSide hside) (hbufLen ▸ hlen)

/-- UPC moves on whatever BUF holds. -/
theorem nextUpc_withBuf (i : Instr) (s : State) (m : Memory) :
    nextUpc i (s.withBuf m) = (nextUpc i s).withBuf m := by
  unfold nextUpc
  split <;> rfl

/-- A program's micro-op, fetched from the ROM of R250, reads inside the message only. -/
theorem ignoresBuf_bodyPhase {m : Memory} {s : State} (h : s.SameMessage m)
    (hrom : s.rom = microRom) : IgnoresBuf m bodyPhase s := by
  refine ignoresBuf_withRead rfl fun b hb => ?_
  cases hd : decode (.uop b) with
  | error e => rfl
  | ok i =>
    refine ignoresBuf_ite rfl (fun _ => ?_) fun _ => rfl
    refine ignoresBuf_andThen ?_ fun u _ => ignoresBuf_next (nextUpc_withBuf i u m)
    by_cases hi : i = .endProg
    · subst hi
      rfl
    · obtain ⟨hfield, -⟩ := placeAgrees_of_fetch hrom hb hd hi
      exact ignoresBuf_exec_fieldOp h hfield

/-- FINISH reads nothing (R246). -/
theorem ignoresBuf_finishPhase (m : Memory) (s : State) : IgnoresBuf m finishPhase s := by
  refine ignoresBuf_next ?_
  have hop : (s.withBuf m).status = s.status := rfl
  simp only [hop]
  split <;> rfl

/-- Under the invariant every phase reads inside the message only. -/
theorem ignoresBuf_phaseStep {m : Memory} {s : State} (hinv : s.Inv) (h : s.SameMessage m) :
    IgnoresBuf m phaseStep s := by
  obtain ⟨⟨-, -, hrom⟩, -, -, ⟨-, -, hlen, -⟩, -⟩ := hinv
  have hphase : (s.withBuf m).phase = s.phase := rfl
  simp only [IgnoresBuf, phaseStep, hphase]
  split
  · rfl
  · exact ignoresBuf_execPhase h
  · rfl
  · next hhdr => exact ignoresBuf_hdrPhase h (hlen (.inl hhdr))
  · exact ignoresBuf_bodyPhase h hrom
  · exact ignoresBuf_finishPhase m s

/-- Settles O29: the turn over the other memory is the turn over BUF, with that memory in place. -/
theorem engineReadsOnlyTheMessage : Obligations.EngineReadsOnlyTheMessage := by
  intro s t buf' hinv hsame ht
  have hturn : IgnoresBuf buf' engineStep s :=
    ignoresBuf_ite rfl (fun _ => ignoresBuf_phaseStep hinv hsame) fun _ => ignoresBuf_next rfl
  rw [IgnoresBuf, ht] at hturn
  exact hturn

end Sys2Proof.Machine
end

section
/-! SUPPORT. The encodings: a header word, a micro-op and a `CMD` word taken apart and put together
again, and the statements about the decoder and the encoder (30_encoding.md R111 to R137). -/

namespace Sys2Proof

/-! ### Header words -/

/-- The tcode of a header word is the one it was built with (R111). -/
theorem Header.tcode_toWord (h : Header) (t : Nibble) : (h.toWord t).extractLsb' 4 4 = t := by
  rw [toWord, BitVec.extractLsb'_append_eq_of_le (by decide), BitVec.extractLsb'_append_eq_right]

/-- The operands of a header word are the ones it was built with (R111). -/
theorem Header.ofWord_toWord (h : Header) (t : Nibble) : Header.ofWord (h.toWord t) = h := by
  simp only [ofWord, toWord, BitVec.extractLsb'_append_eq_of_le, BitVec.extractLsb'_append_eq_right,
    BitVec.extractLsb'_eq_self, Nat.reduceLeDiff, Nat.reduceSub]

/-- A header word is its operands and its tcode: no bit is left out (R111). -/
theorem Header.toWord_ofWord (w : Word) : (Header.ofWord w).toWord (w.extractLsb' 4 4) = w := by
  simp only [toWord, ofWord]
  rw [BitVec.extractLsb'_append_extractLsb'_eq_extractLsb' (by decide : 31 = 16 + 15),
    BitVec.extractLsb'_append_extractLsb'_eq_extractLsb' (by decide : 16 = 10 + 6),
    BitVec.extractLsb'_append_extractLsb'_eq_extractLsb' (by decide : 10 = 8 + 2),
    BitVec.extractLsb'_append_extractLsb'_eq_extractLsb' (by decide : 8 = 4 + 4)]
  exact BitVec.extractLsb'_append_extractLsb'

/-- The variant of a tcode (R115). -/
def Header.variant (h : Header) (t : Nibble) : Instr :=
  match t.toNat with
  | 0 => .wqreq h
  | 1 => .wbreq h
  | 2 => .wresp h
  | 3 => .rsvd3 h
  | 4 => .rqreq h
  | 5 => .rbreq h
  | 6 => .rqresp h
  | 7 => .rbresp h
  | _ => .rsvd8to15 h (t.extractLsb' 0 3)

/-- Bits [6:4] of a header word are the low bits of its tcode. -/
theorem extractLsb'_low_tcode (w : Word) :
    w.extractLsb' 4 3 = (w.extractLsb' 4 4).extractLsb' 0 3 := by
  ext k hk
  have hk4 : k < 4 := Nat.lt_of_lt_of_le hk (by decide)
  simp [hk4]

/-- A header word decodes to the variant of its tcode, with its operands (R115, R244). -/
theorem decodeWire_eq_variant (w : Word) :
    decodeWire w = (Header.ofWord w).variant (w.extractLsb' 4 4) := by
  rw [decodeWire, extractLsb'_low_tcode]
  rfl

/-- A variant is encoded by its operands and its tcode (R111). -/
theorem encode_variant (h : Header) (t : Nibble) : encode (h.variant t) = .wire (h.toWord t) := by
  unfold Header.variant
  split
  case h_9 h0 h1 h2 h3 h4 h5 h6 h7 =>
    simp only [imp_false] at h0 h1 h2 h3 h4 h5 h6 h7
    obtain ⟨-, ht⟩ := Machine.tcode_of_top_bit t (by omega)
    exact congrArg (fun t => Code.wire (h.toWord t)) ht
  all_goals
    next ht =>
    obtain ⟨-, rfl⟩ := BitVec.toNat_eq_nat.1 ht
    rfl

/-- Encoding a decoded header word gives it back. -/
theorem encode_decodeWire (w : Word) : encode (decodeWire w) = .wire w := by
  rw [decodeWire_eq_variant, encode_variant, Header.toWord_ofWord]

/-- Decoding an encoded variant gives it back. -/
theorem decode_encode_variant (h : Header) (t : Nibble) :
    decode (encode (h.variant t)) = .ok (h.variant t) := by
  rw [encode_variant, decode, decodeWire_eq_variant, Header.ofWord_toWord, Header.tcode_toWord]

/-- The variant of a tcode 8 to 15 keeps its low bits. -/
theorem Header.variant_top_bit (h : Header) (low : BitVec 3) :
    h.variant (1#1 ++ low) = .rsvd8to15 h low := by
  have htop : 8 ≤ (1#1 ++ low).toNat := by decide +revert
  unfold variant
  split
  case h_9 => rw [BitVec.extractLsb'_append_eq_right]
  all_goals omega

/-! ### Micro-ops -/

/-- A micro-op is its OPC above its ARG (R135). -/
theorem eq_opc_append_arg {b : Byte} {k : Nat} (h : (b.extractLsb' 4 4).toNat = k) :
    b = BitVec.ofNat 4 k ++ b.extractLsb' 0 4 := by
  rw [← (BitVec.toNat_eq_nat.1 h).2]
  exact (BitVec.extractLsb'_append_extractLsb' (w := 4) (len := 4)).symm

/-- A micro-op that takes no argument is accepted with ARG 0 only (R137). -/
theorem decodeNoArg_eq_ok {b : Byte} {i j : Instr} (h : decodeNoArg b i = .ok j) :
    b.extractLsb' 0 4 = 0#4 ∧ j = i := by
  unfold decodeNoArg at h
  split at h
  · next harg => exact ⟨harg, by cases h; rfl⟩
  · cases h

/-- Encoding a decoded micro-op gives its word back. -/
theorem encode_of_decodeMicroOp {b : Byte} {i : Instr} (h : decodeMicroOp b = .ok i) :
    encode i = .uop b := by
  unfold decodeMicroOp at h
  split at h
  case h_10 => cases h
  case h_3 hopc | h_4 hopc | h_6 hopc =>
    cases h
    exact congrArg Code.uop (eq_opc_append_arg hopc).symm
  case h_1 hopc | h_2 hopc | h_5 hopc | h_7 hopc | h_8 hopc | h_9 hopc =>
    obtain ⟨harg, rfl⟩ := decodeNoArg_eq_ok h
    rw [eq_opc_append_arg hopc, harg]
    rfl

/-- Decoding a micro-op that takes an argument gives the argument back, whatever it is (R135). -/
theorem decode_encode_arg :
    ∀ a : Nibble, decode (encode (.u16 a)) = .ok (.u16 a)
      ∧ decode (encode (.u32 a)) = .ok (.u32 a)
      ∧ decode (encode (.skip a)) = .ok (.skip a) := by decide

/-- No well-formed micro-op has a reserved word (R136, R137). -/
theorem not_reserved_of_wellFormed {b : Byte} {i : Instr} (hi : i.wellFormed = true)
    (hb : encode i = .uop b) : ¬ Machine.reservedMicroOp b := by
  cases i with
  | u16 kind | u32 kind =>
    obtain rfl := eq_of_beq hi
    cases hb
    decide
  | skip n =>
    cases hb
    clear hi
    decide +revert
  | endProg | hdr | rcode | doff | dlen | block =>
    cases hb
    decide
  | _ => cases hb

/-! ### Command words -/

/-- OP is the low digit of a `CMD` word (R130). -/
theorem toNat_op (w : Word) : (w.extractLsb' 0 4).toNat = w.toNat % 16 := by
  rw [BitVec.extractLsb'_toNat, Nat.shiftRight_zero]

/-- DETAIL is bit [4] of a `CMD` word (R130). -/
theorem detail_eq (w : Word) : w.getLsbD 4 = decide (w.toNat / 16 % 2 = 1) :=
  Machine.getLsbD_eq_decide_div w 4

/-! ### The statements -/

/-- Settles O4, word by word. -/
theorem specWordsDecode : Obligations.SpecWordsDecode :=
  ⟨rfl, rfl, rfl, rfl, rfl⟩

/-- Settles O1: the operands of a header word and the ARG of a micro-op are cut out as they were put in,
and the other instructions are one word each. -/
theorem decodeEncodeRoundTrip : Obligations.DecodeEncodeRoundTrip := by
  intro i
  cases i with
  | matchSig | msglen | decode | decodeS => rfl
  | endProg | hdr | rcode | doff | dlen | block => rfl
  | u16 a | u32 a | skip a =>
    obtain ⟨hu16, hu32, hskip⟩ := decode_encode_arg a
    assumption
  | wqreq h => exact decode_encode_variant h 0#4
  | wbreq h => exact decode_encode_variant h 1#4
  | wresp h => exact decode_encode_variant h 2#4
  | rsvd3 h => exact decode_encode_variant h 3#4
  | rqreq h => exact decode_encode_variant h 4#4
  | rbreq h => exact decode_encode_variant h 5#4
  | rqresp h => exact decode_encode_variant h 6#4
  | rbresp h => exact decode_encode_variant h 7#4
  | rsvd8to15 h low => exact h.variant_top_bit low ▸ decode_encode_variant h (1#1 ++ low)

/-- Settles O2, in each of the two spaces. -/
theorem encodeDecodeKeepsEveryBit : Obligations.EncodeDecodeKeepsEveryBit := by
  refine ⟨fun b i h => encode_of_decodeMicroOp h, fun w i h => ?_⟩
  cases h
  exact encode_decodeWire w

/-- Settles O3: the decoder looks at OP, and at DETAIL for DECODE. -/
theorem commandWordDecoding : Obligations.CommandWordDecoding := by
  intro w
  simp only [decode, decodeCommand, toNat_op, detail_eq]
  refine ⟨fun h => ?_, fun h => ?_, fun h hd => ?_, fun h hd => ?_, fun h => ?_⟩
  · simp [h]
  · simp [h]
  · simp [h, hd]
  · simp [h, hd]
  · split
    case h_4 => rw [← toNat_op, BitVec.ofNat_toNat, BitVec.setWidth_eq]
    all_goals omega

/-- Settles O5: a reserved word that decodes is not well-formed, and BODY refuses it either way. -/
theorem reservedMicroOpsRefused : Obligations.ReservedMicroOpsRefused := by
  refine ⟨by decide, fun s b hbusy hbody hfetch hreserved => ?_⟩
  simp only [Machine.engineStep, hbusy, Machine.phaseStep, hbody, Machine.bodyPhase, hfetch,
    Machine.withRead_ok, if_true]
  cases hd : decode (.uop b) with
  | error e => rfl
  | ok i =>
    have hwf : ¬ i.wellFormed = true := fun hwf =>
      not_reserved_of_wellFormed hwf (encode_of_decodeMicroOp hd) hreserved
    exact if_neg hwf

end Sys2Proof
end

section
/-! SUPPORT. The message on the wire and in BUF: what MemRead gives of a message BUF holds, as the
numbers of the wire layout (20_memory.md R87, 30_encoding.md R111 to R125). -/

namespace Sys2Proof.Wire

/-! ### Numbers of the message -/

/-- Reading on from a number shifts it past the bytes that follow (R87). -/
theorem foldl_bigEndian (l : List Byte) (v : Nat) :
    l.foldl (fun v b => v * 256 + b.toNat) v
      = v * 256 ^ l.length + l.foldl (fun v b => v * 256 + b.toNat) 0 := by
  induction l generalizing v with
  | nil => simp
  | cons b l ih =>
    rw [List.foldl_cons, List.foldl_cons, ih (v * 256 + b.toNat), ih (0 * 256 + b.toNat),
      List.length_cons, Nat.pow_succ]
    ring

/-- A number of `n` bytes is below 256 to the `n`. -/
theorem foldl_bigEndian_lt (l : List Byte) :
    l.foldl (fun v b => v * 256 + b.toNat) 0 < 256 ^ l.length := by
  induction l with
  | nil => exact Nat.one_pos
  | cons b l ih =>
    have hb : b.toNat + 1 ≤ 256 := b.isLt
    rw [List.foldl_cons, foldl_bigEndian, List.length_cons, Nat.pow_succ]
    calc (0 * 256 + b.toNat) * 256 ^ l.length + l.foldl (fun v b => v * 256 + b.toNat) 0
      _ < (b.toNat + 1) * 256 ^ l.length := by rw [Nat.zero_mul, Nat.zero_add, Nat.succ_mul]; omega
      _ ≤ 256 ^ l.length * 256 := by rw [Nat.mul_comm]; exact Nat.mul_le_mul_left _ hb

/-- A field of `n` bytes is below 256 to the `n`. -/
theorem field_lt (m : List Byte) (k n : Nat) : field m k n < 256 ^ n :=
  (foldl_bigEndian_lt _).trans_le
    (Nat.pow_le_pow_right (by decide) (List.length_take_le n (m.drop k)))

/-- A field of one byte is that byte. -/
theorem field_one {m : List Byte} {k : Nat} (hk : k < m.length) : field m k 1 = m[k].toNat := by
  rw [field, List.take_one_drop_eq_of_lt_length hk, List.foldl_cons, List.foldl_nil, Nat.zero_mul,
    Nat.zero_add]
  rfl

/-- A whole field is its first bytes above its last ones (R87). -/
theorem field_add {m : List Byte} {k a b : Nat} (h : k + (a + b) ≤ m.length) :
    field m k (a + b) = field m k a * 256 ^ b + field m (k + a) b := by
  have hlast : (((m.drop k).drop a).take b).length = b := by
    simp only [List.length_take, List.length_drop]
    omega
  simp only [field]
  rw [List.take_add, List.foldl_append, foldl_bigEndian, hlast, List.drop_drop]

end Sys2Proof.Wire

namespace Sys2Proof.Machine

/-! ### Reads of a message BUF holds -/

/-- One byte of the message, as a number. -/
theorem State.Holds.memRead1 {s : State} {m : List Byte} {k : Nat} (h : s.Holds m)
    (hk : k + 1 ≤ m.length) : ∃ b, s.memRead1 k = .ok b ∧ b.toNat = Wire.field m k 1 := by
  obtain ⟨-, hread⟩ := h
  refine ⟨m[k], State.memRead1_eq_ok.2 ?_, (Wire.field_one hk).symm⟩
  rw [hread k hk, List.getElem?_eq_getElem hk]

/-- Two bytes of the message, as a number. -/
theorem State.Holds.memRead2 {s : State} {m : List Byte} {k : Nat} (h : s.Holds m)
    (hk : k + 2 ≤ m.length) : ∃ v, s.memRead2 k = .ok v ∧ v.toNat = Wire.field m k 2 := by
  obtain ⟨b0, h0, hb0⟩ := memRead1 h (k := k) (by omega)
  obtain ⟨b1, h1, hb1⟩ := memRead1 h (k := k + 1) (by omega)
  refine ⟨b0 ++ b1, by rw [State.memRead2, h0, h1], ?_⟩
  rw [toNat_append_eq_add, hb0, hb1, Wire.field_add (a := 1) (b := 1) hk, Nat.mul_comm]
  rfl

/-- Four bytes of the message, as a number. -/
theorem State.Holds.memRead4 {s : State} {m : List Byte} {k : Nat} (h : s.Holds m)
    (hk : k + 4 ≤ m.length) : ∃ v, s.memRead4 k = .ok v ∧ v.toNat = Wire.field m k 4 := by
  obtain ⟨v0, h0, hv0⟩ := memRead2 h (k := k) (by omega)
  obtain ⟨v1, h1, hv1⟩ := memRead2 h (k := k + 2) (by omega)
  refine ⟨v0 ++ v1, by rw [State.memRead4, h0, h1], ?_⟩
  rw [toNat_append_eq_add, hv0, hv1, Wire.field_add (a := 2) (b := 2) hk, Nat.mul_comm]
  rfl

/-- The guard over a message BUF holds asks whether the field lies inside the message (R201). -/
theorem State.Holds.fits_eq {s : State} {m : List Byte} (h : s.Holds m) (cur : Word) (w : Nat) :
    fits s.bufLen cur w = decide (cur.toNat + w ≤ m.length) := by
  rw [fits, h.1]

/-- The tcode of a message is the high nibble of byte 3 (R114). -/
theorem tcode_eq {m : List Byte} {b : Byte} (hb : b.toNat = Wire.field m 3 1) :
    (tcodeOf b).toNat = Wire.tcode m := by
  have hlt := b.isLt
  rw [tcodeOf, BitVec.extractLsb'_toNat, Nat.shiftRight_eq_div_pow, hb, Wire.tcode]
  omega

end Sys2Proof.Machine
end

section
/-! SUPPORT. The programs of the ROM over a message: how far each micro-op brings a decoding of it, and
that the engine's micro-ops and programs do exactly that, with detail or without (42_field_cursor.md
R200 to R211, 43_message_decoder.md R245, R250). -/

namespace Sys2Proof.Wire

open Sys2Proof.Machine

/-! ### A decoding under way -/

/-- How far a decoding of a message has come: the cursor, the data_length held, the records and the data
block so far. -/
structure Progress where
  cur : Word
  dlen : Half
  records : List FieldRec
  block : Block

/-- The record of a field, if the field is whole (R201). -/
def wholeField (m : List Byte) (f : Slot) : List FieldRec :=
  if f.start + f.width ≤ m.length then [record f.kind f.start f.width (reported m f)] else []

/-- Before the first byte (R241). -/
def Progress.start : Progress := ⟨0#32, 0#16, [], .zero⟩

/-- After the header (R203). -/
def Progress.header (m : List Byte) : Progress := ⟨4#32, 0#16, headerRecords m, .zero⟩

/-- The field of this kind and width at the cursor reported, if it is whole. -/
def Progress.report (p : Progress) (m : List Byte) (kind width : Nat) : Progress :=
  { p with records := p.records ++ wholeField m ⟨kind, p.cur.toNat, width⟩ }

/-- The cursor moved by a width (R202). -/
def Progress.advance (p : Progress) (n : Nat) : Progress :=
  { p with cur := p.cur + BitVec.ofNat 32 n }

/-- A micro-op of a program, in terms of the message alone (R204 to R210). -/
def Progress.run (m : List Byte) (p : Progress) : Instr → Progress
  | .u16 kind => (p.report m kind.toNat 2).advance 2
  | .u32 kind => (p.report m kind.toNat 4).advance 4
  | .rcode => (p.report m 8 1).advance 1
  | .skip n => p.advance n.toNat
  | .doff => ((p.advance 2).report m 6 4).advance 4
  | .dlen =>
    { (p.report m 9 2).advance 2 with
      dlen := BitVec.ofNat 16 (if p.cur.toNat + 2 ≤ m.length then field m p.cur.toNat 2 else 0) }
  | .block =>
    if p.cur.toNat + p.dlen.toNat ≤ m.length then
      { p with
        records := p.records ++ [record 10 p.cur.toNat p.dlen.toNat p.dlen.toNat]
        block := .describe p.cur p.dlen }
    else p
  | _ => p

/-- A whole field is reported. -/
theorem Progress.report_of_whole {p : Progress} {m : List Byte} {width : Nat} (kind : Nat)
    (h : p.cur.toNat + width ≤ m.length) :
    p.report m kind width = { p with records := p.records ++
      [record kind p.cur.toNat width (reported m ⟨kind, p.cur.toNat, width⟩)] } := by
  rw [report, wholeField, if_pos h]

/-- A field that is cut off is not reported. -/
theorem Progress.report_of_cut {p : Progress} {m : List Byte} {width : Nat} (kind : Nat)
    (h : ¬ p.cur.toNat + width ≤ m.length) : p.report m kind width = p := by
  rw [report, wholeField, if_neg h, List.append_nil]

/-- A field adds one record at most. -/
theorem Progress.length_report_le (p : Progress) (m : List Byte) (kind width : Nat) :
    (p.report m kind width).records.length ≤ p.records.length + 1 := by
  unfold report wholeField
  split <;> simp

/-- A micro-op adds one record at most. -/
theorem Progress.length_run_le (m : List Byte) (p : Progress) (i : Instr) :
    (p.run m i).records.length ≤ p.records.length + 1 := by
  cases i with
  | u16 kind => exact length_report_le p m _ 2
  | u32 kind => exact length_report_le p m _ 4
  | rcode => exact length_report_le p m _ 1
  | doff => exact length_report_le (p.advance 2) m _ 4
  | dlen => exact length_report_le p m _ 2
  | block =>
    simp only [run]
    split <;> simp
  | _ => exact Nat.le_succ _

/-! ### The programs -/

/-- The micro-ops of each program before its END (R250). -/
def program (p : BitVec 3) : List Instr :=
  match p.toNat with
  | 0 => [.u16 5#4, .doff, .u32 7#4]
  | 1 => [.u16 5#4, .doff, .dlen, .skip 2#4, .block]
  | 2 => [.u16 5#4, .rcode]
  | 4 => [.u16 5#4, .doff]
  | 5 => [.u16 5#4, .doff, .dlen]
  | 6 => [.u16 5#4, .rcode, .skip 5#4, .u32 7#4]
  | 7 => [.u16 5#4, .rcode, .skip 5#4, .dlen, .skip 2#4, .block]
  | _ => []

/-- The ROM holds these programs, each closed by END. -/
theorem microRom_eq_program (p : BitVec 3) :
    (microRom[p.toNat]?.map fun l => l.map fun b => decode (.uop b))
      = some ((program p ++ [Instr.endProg]).map .ok) := by
  decide +revert

/-- A program is made of the micro-ops of fields, none of them reserved (R136, R137). -/
theorem program_fieldOps (p : BitVec 3) :
    ∀ i ∈ program p, i.isFieldOp = true ∧ i.wellFormed = true := by
  decide +revert

/-- No program leaves the range of UPC (R38). -/
theorem length_program_le (p : BitVec 3) : (program p).length ≤ 6 := by
  decide +revert

end Sys2Proof.Wire

namespace Sys2Proof.Machine

open Sys2Proof.Wire

/-! ### The engine's side of it -/

/-- The eight slots with these records in the first of them, the others cleared (R57). -/
def slots (rs : List FieldRec) : Vector FieldRec 8 :=
  Vector.ofFn fun i => rs.getD i FieldRec.zero

/-- The records a decoding reports: all with detail, none without (R200). -/
def State.shown (s : State) (rs : List FieldRec) : List FieldRec := if s.detailR then rs else []

/-- The engine at this UPC, with a decoding come this far in its registers. -/
def State.working (s : State) (upc : Nat) (p : Progress) : State :=
  { s with
    upc := BitVec.ofNat 3 upc
    cur := p.cur
    dlen := p.dlen
    fields := slots (s.shown p.records)
    fieldCount := BitVec.ofNat 4 (s.shown p.records).length
    block := if s.detailR then p.block else .zero }

@[simp] theorem State.working_cur (s : State) (u : Nat) (p : Progress) :
    (s.working u p).cur = p.cur := rfl
@[simp] theorem State.working_dlen (s : State) (u : Nat) (p : Progress) :
    (s.working u p).dlen = p.dlen := rfl
@[simp] theorem State.working_prog (s : State) (u : Nat) (p : Progress) :
    (s.working u p).prog = s.prog := rfl
@[simp] theorem State.working_bufLen (s : State) (u : Nat) (p : Progress) :
    (s.working u p).bufLen = s.bufLen := rfl

/-- UPC moves on along a decoding (R245). -/
theorem State.working_succ (s : State) (u : Nat) (p : Progress) :
    { s.working u p with upc := (s.working u p).upc + 1#3 } = s.working (u + 1) p := by
  simp only [working, BitVec.ofNat_add]

/-- A decoding under way leaves the message in place. -/
theorem State.Holds.working {s : State} {m : List Byte} (h : s.Holds m) (u : Nat) (p : Progress) :
    (s.working u p).Holds m := h

/-- One more record fills the next slot; past the last slot it fills none (R200, log 23). -/
theorem slots_append (rs : List FieldRec) (r : FieldRec) :
    slots (rs ++ [r]) = (slots rs).setIfInBounds rs.length r := by
  ext1 i hi
  simp only [slots, Vector.getElem_ofFn, Vector.getElem_setIfInBounds]
  rcases Nat.lt_trichotomy i rs.length with hlt | rfl | hgt
  · rw [if_neg (by omega), List.getD_append _ _ _ _ hlt]
  · rw [if_pos rfl, List.getD_append_right _ _ _ _ (Nat.le_refl _), Nat.sub_self]
    rfl
  · rw [if_neg (by omega), List.getD_eq_default _ _ (by simp; omega),
      List.getD_eq_default _ _ (by omega)]

/-- Emit adds its record to those of the decoding. -/
theorem State.emit_working (s : State) (u : Nat) {p : Progress} (k : Nibble) (a n v : Word)
    (hcount : p.records.length < 16) :
    (s.working u p).emit k a n v
      = s.working u { p with records := p.records ++ [⟨k, a, n, v⟩] } := by
  cases hd : s.detailR with
  | false =>
    rw [State.emit_of_summaryOnly (s := s.working u p) hd]
    simp [working, shown, hd]
  | true =>
    rw [State.emit_of_detail (s := s.working u p) hd]
    simp only [working, shown, hd, if_true, slots_append, BitVec.toNat_ofNat, List.length_append,
      Nat.mod_eq_of_lt hcount, List.length_singleton, BitVec.ofNat_add]

/-- A value as wide as its field is the field's number, but for an rcode (R125). -/
theorem setWidth_eq_reported {n kind k w : Nat} {v : BitVec n} {m : List Byte} (hkind : kind ≠ 8)
    (hv : v.toNat = field m k w) : v.setWidth 32 = BitVec.ofNat 32 (reported m ⟨kind, k, w⟩) := by
  rw [reported, if_neg hkind, ← hv, BitVec.ofNat_toNat]

/-- A value of four bytes is the field's number. -/
theorem eq_reported {kind k w : Nat} {v : Word} {m : List Byte} (hkind : kind ≠ 8)
    (hv : v.toNat = field m k w) : v = BitVec.ofNat 32 (reported m ⟨kind, k, w⟩) :=
  (BitVec.setWidth_eq v).symm.trans (setWidth_eq_reported hkind hv)

/-- An rcode is the high nibble of its byte (R119). -/
theorem rcode_eq_reported {b : Byte} {m : List Byte} {k : Nat} (hb : b.toNat = field m k 1) :
    (rcodeOf b).setWidth 32 = BitVec.ofNat 32 (reported m ⟨8, k, 1⟩) := by
  have hrcode : (rcodeOf b).toNat = b.toNat / 16 := by
    have hlt := b.isLt
    rw [rcodeOf, BitVec.extractLsb'_toNat, Nat.shiftRight_eq_div_pow]
    omega
  rw [reported, if_pos rfl, ← hb, ← hrcode, BitVec.ofNat_toNat]

/-- The record of a whole field, with the number the message gives it. -/
theorem State.emit_whole (s : State) (u : Nat) {p : Progress} {m : List Byte} {k : Nibble}
    {v : Word} {w : Nat} (hcount : p.records.length < 16) (hwhole : p.cur.toNat + w ≤ m.length)
    (hv : v = BitVec.ofNat 32 (reported m ⟨k.toNat, p.cur.toNat, w⟩)) :
    (s.working u p).emit k p.cur (BitVec.ofNat 32 w) v = s.working u (p.report m k.toNat w) := by
  rw [emit_working s u _ _ _ _ hcount, Progress.report_of_whole _ hwhole, record,
    BitVec.ofNat_toNat, BitVec.ofNat_toNat, BitVec.setWidth_eq, BitVec.setWidth_eq, hv]

/-- A guarded read reports its field if it is whole, and moves the cursor past it (R201, R202). -/
theorem State.Holds.guarded_report {s : State} {m : List Byte} (h : s.Holds m) {u : Nat}
    {p : Progress} {α : Type} {r : Except Fault α} {val : α → Word} {k : Nibble} {w : Nat}
    (hcount : p.records.length < 16)
    (hr : p.cur.toNat + w ≤ m.length →
      ∃ v, r = .ok v ∧ val v = BitVec.ofNat 32 (reported m ⟨k.toNat, p.cur.toNat, w⟩)) :
    (if fits s.bufLen p.cur w then
        withRead r fun v =>
          .next (((s.working u p).emit k p.cur (BitVec.ofNat 32 w) (val v)).advance w)
      else .next ((s.working u p).advance w))
      = .next (s.working u ((p.report m k.toNat w).advance w)) := by
  simp only [h.fits_eq, decide_eq_true_eq]
  split
  · next hwhole =>
    obtain ⟨v, rfl, hv⟩ := hr hwhole
    rw [withRead_ok, emit_whole s u hcount hwhole hv]
    rfl
  · next hcut =>
    rw [Progress.report_of_cut _ hcut]
    rfl

/-- DLEN reports data_length and holds it, or holds 0 (R209). -/
theorem State.Holds.execDlen_working {s : State} {m : List Byte} (h : s.Holds m) (u : Nat)
    {p : Progress} (hcount : p.records.length < 16) :
    execDlen (s.working u p) = .next (s.working u (p.run m .dlen)) := by
  simp only [execDlen, working_bufLen, working_cur, h.fits_eq, decide_eq_true_eq, Progress.run]
  split
  · next hwhole =>
    obtain ⟨v, hread, hv⟩ := (h.working u p).memRead2 hwhole
    have hemit := emit_whole (k := kindDataLength) s u hcount hwhole
      (setWidth_eq_reported (by decide) hv)
    rw [hread, withRead_ok, hemit, ← hv, BitVec.ofNat_toNat, BitVec.setWidth_eq]
    rfl
  · next hcut =>
    rw [Progress.report_of_cut _ hcut]
    rfl

/-- BLOCK reports and describes a whole block, and nothing else (R210). -/
theorem State.Holds.execBlock_working {s : State} {m : List Byte} (h : s.Holds m) (u : Nat)
    {p : Progress} (hcount : p.records.length < 16) :
    execBlock (s.working u p) = .next (s.working u (p.run m .block)) := by
  simp only [execBlock, working_bufLen, working_cur, working_dlen, h.fits_eq, decide_eq_true_eq,
    Progress.run]
  split
  · have hrecord : record 10 p.cur.toNat p.dlen.toNat p.dlen.toNat
        = ⟨kindDataBlock, p.cur, p.dlen.setWidth 32, p.dlen.setWidth 32⟩ := by
      simp [record, kindDataBlock]
    rw [emit_working s u _ _ _ _ hcount, hrecord]
    cases hd : s.detailR <;> simp [State.working, hd]
  · rfl

/-- A micro-op of a program, over a message BUF holds, does what it does in terms of the message. -/
theorem State.Holds.exec_working {s : State} {m : List Byte} (h : s.Holds m) {i : Instr}
    (hi : i.isFieldOp = true) (hwf : i.wellFormed = true) (u : Nat) {p : Progress}
    (hcount : p.records.length < 16) :
    exec i (s.working u p) = .next (s.working u (p.run m i)) := by
  cases i with
  | u16 kind =>
    obtain rfl : kind = 5#4 := eq_of_beq hwf
    refine h.guarded_report hcount fun hwhole => ?_
    obtain ⟨v, hread, hv⟩ := h.memRead2 hwhole
    exact ⟨v, hread, setWidth_eq_reported (by decide) hv⟩
  | u32 kind =>
    obtain rfl : kind = 7#4 := eq_of_beq hwf
    refine h.guarded_report hcount fun hwhole => ?_
    obtain ⟨v, hread, hv⟩ := h.memRead4 hwhole
    exact ⟨v, hread, eq_reported (by decide) hv⟩
  | rcode =>
    refine h.guarded_report hcount fun hwhole => ?_
    obtain ⟨b, hread, hb⟩ := h.memRead1 hwhole
    exact ⟨b, hread, rcode_eq_reported hb⟩
  | skip n => rfl
  | doff =>
    refine h.guarded_report (p := p.advance 2) hcount fun hwhole => ?_
    obtain ⟨v, hread, hv⟩ := h.memRead4 hwhole
    exact ⟨v, hread, eq_reported (by decide) hv⟩
  | dlen => exact h.execDlen_working u hcount
  | block => exact h.execBlock_working u hcount
  | _ => cases hi

/-! ### Programs -/

/-- The micro-op at a place of a program, or its END, is what the ROM's word there decodes to. -/
theorem fetchMicroOp_program {s : State} {i : Instr} {done rest : List Instr}
    (hrom : s.rom = microRom) (hupc : s.upc = BitVec.ofNat 3 done.length)
    (hprog : program s.prog ++ [.endProg] = done ++ i :: rest) :
    ∃ b, fetchMicroOp s = .ok b ∧ decode (.uop b) = .ok i := by
  have hlength := congrArg List.length hprog
  have hle := length_program_le s.prog
  simp only [List.length_append, List.length_cons, List.length_nil] at hlength
  have hplace : s.upc.toNat = done.length := by
    rw [hupc, BitVec.toNat_ofNat, Nat.mod_eq_of_lt (by omega)]
  have hcells := microRom_eq_program s.prog
  rw [hprog] at hcells
  obtain ⟨l, hl, hmap⟩ := Option.map_eq_some_iff.1 hcells
  have hcell := congrArg (·[s.upc.toNat]?) hmap
  simp only [List.getElem?_map, hplace, List.getElem?_append_right (Nat.le_refl _), Nat.sub_self,
    List.getElem?_cons_zero, Option.map_some] at hcell
  obtain ⟨b, hb, hd⟩ := Option.map_eq_some_iff.1 hcell
  exact ⟨b, fetchMicroOp_eq_ok.2 ⟨l, hrom ▸ hl, hplace ▸ hb⟩, hd⟩

/-- A turn in BODY runs the micro-op of its place (R245). -/
theorem engineStep_program {s : State} {i : Instr} {done rest : List Instr}
    (hrom : s.rom = microRom) (hbusy : s.status.busy = true) (hbody : s.phase = .body)
    (hupc : s.upc = BitVec.ofNat 3 done.length)
    (hprog : program s.prog ++ [.endProg] = done ++ i :: rest) (hwf : i.wellFormed = true) :
    engineStep s = andThen (exec i s) fun s => .next (nextUpc i s) := by
  obtain ⟨b, hb, hd⟩ := fetchMicroOp_program hrom hupc hprog
  simp [engineStep, hbusy, phaseStep, hbody, bodyPhase, hb, hd, hwf]

/-- In BODY, the rest of a program runs to its END, turn by turn, as it does in terms of the message. -/
theorem State.Holds.engineRun_program {s : State} {m : List Byte} (h : s.Holds m)
    (hrom : s.rom = microRom) (hbusy : s.status.busy = true) (hbody : s.phase = .body)
    (rest done : List Instr) (p : Progress) (hprog : program s.prog = done ++ rest)
    (hcount : p.records.length + rest.length < 16) :
    engineRun (rest.length + 1) (s.working done.length p)
      = .next { s.working (program s.prog).length (rest.foldl (Progress.run m) p) with
          phase := .finish } := by
  induction rest generalizing done p with
  | nil =>
    have hturn := engineStep_program (s := s.working done.length p) (i := .endProg) (done := done)
      (rest := []) hrom hbusy hbody rfl (by rw [working_prog, hprog, List.append_nil]) rfl
    rw [List.length_nil, engineRun_succ, hturn, hprog, List.append_nil]
    rfl
  | cons i rest ih =>
    obtain ⟨hi, hwf⟩ := program_fieldOps s.prog i (by simp [hprog])
    have hturn := engineStep_program (s := s.working done.length p) (i := i) (done := done)
      (rest := rest ++ [.endProg]) hrom hbusy hbody rfl (by simp [hprog]) hwf
    have hnext : nextUpc i (s.working done.length (p.run m i))
        = s.working (done ++ [i]).length (p.run m i) := by
      have hne : i ≠ .endProg := by
        rintro rfl
        cases hi
      rw [nextUpc, if_neg hne, working_succ, List.length_append, List.length_singleton]
    have hadd := p.length_run_le m i
    rw [List.length_cons] at hcount
    rw [List.length_cons, engineRun_succ, hturn, h.exec_working hi hwf _ (by omega), andThen_next,
      hnext, andThen_next, List.foldl_cons]
    exact ih (done ++ [i]) (p.run m i) (by simp [hprog]) (by omega)

end Sys2Proof.Machine
end

section
/-! SUPPORT. The programs of the ROM give the wire layout: each program, run over a message of its
tcode, reports the fields, the block, the cursor and the length R116 gives that message (43_message_decoder.md
R251 to R258, R281). -/

namespace Sys2Proof.Wire

open Sys2Proof.Machine

/-! ### The layout, field by field -/

/-- The record of the data block, if it is whole (R210). -/
def wholeBlock (m : List Byte) : List FieldRec :=
  if hasBlock m then [record 10 16 (dataLength m) (dataLength m)] else []

/-- Reporting the whole fields of a layout is reporting each field that is whole. -/
theorem map_filter_eq_flatMap (m : List Byte) (l : List Slot) :
    (l.filter fun f => decide (f.start + f.width ≤ m.length)).map
        (fun f => record f.kind f.start f.width (reported m f)) = l.flatMap (wholeField m) := by
  induction l with
  | nil => rfl
  | cons f l ih =>
    rw [List.flatMap_cons, ← ih, List.filter_cons, wholeField]
    by_cases h : f.start + f.width ≤ m.length <;> simp [h]

/-- From 12 bytes on, a message reports its header, its whole fields and its whole block. -/
theorem records_eq {m : List Byte} (h : 12 ≤ m.length) :
    records m
      = headerRecords m ++ (layout (tcode m)).flatMap (wholeField m) ++ wholeBlock m := by
  rw [records, if_neg (by omega), map_filter_eq_flatMap, wholeBlock]

/-- No variant has more than three fields (R116). -/
theorem length_layout_le (t : Nat) : (layout t).length ≤ 3 := by
  unfold layout
  split <;> decide

/-- A message reports 7 records at most (R280). -/
theorem length_records_le (m : List Byte) : (records m).length ≤ 7 := by
  have hheader : (headerRecords m).length = 3 := rfl
  have hfields := length_layout_le (tcode m)
  have hfilter := List.length_filter_le (fun f => decide (f.start + f.width ≤ m.length))
    (layout (tcode m))
  have hblock : (wholeBlock m).length ≤ 1 := by
    unfold wholeBlock
    split <;> simp
  by_cases hshort : m.length < 12
  · simp [records, hshort]
  · rw [records_eq (by omega), ← map_filter_eq_flatMap]
    simp only [List.length_append, List.length_map]
    omega

/-- A data_length is a number of two bytes (R121). -/
theorem dataLength_lt (m : List Byte) : dataLength m < 65536 := by
  unfold dataLength
  split
  · exact field_lt m 12 2
  · decide

/-- What a decoding of a message has come to at its end. -/
def Progress.final (m : List Byte) : Progress :=
  ⟨BitVec.ofNat 32 (finalCursor m), BitVec.ofNat 16 (dataLength m), Wire.records m, Wire.block m⟩

/-- The whole of a message below 12 bytes is nothing (R242). -/
theorem Progress.final_of_short {m : List Byte} (h : m.length < 12) :
    Progress.final m = .start := by
  have hdlen : dataLength m = 0 := if_neg (by omega)
  have hblock : hasBlock m = false := by
    simp [hasBlock, Nat.not_le_of_lt h]
  simp [final, start, finalCursor, Wire.records, Wire.block, h, hdlen, hblock]

/-- Past the data_length of a variant with a data block, BLOCK reports and describes the block (R210). -/
theorem Progress.run_block {m : List Byte} {p : Progress} (h : 12 ≤ m.length)
    (htcode : tcode m = 1 ∨ tcode m = 7) (hcur : p.cur = 16#32)
    (hdlen : p.dlen = BitVec.ofNat 16 (dataLength m)) (hblock : p.block = .zero) :
    p.run m .block
      = { p with records := p.records ++ wholeBlock m, block := Wire.block m } := by
  have hnat : p.dlen.toNat = dataLength m := by
    rw [hdlen, BitVec.toNat_ofNat, Nat.mod_eq_of_lt (dataLength_lt m)]
  have hhas : hasBlock m = decide (16 + dataLength m ≤ m.length) := by
    rcases htcode with ht | ht <;> simp [hasBlock, h, ht]
  have h16 : p.cur.toNat = 16 := congrArg BitVec.toNat hcur
  simp only [run, wholeBlock, Wire.block, hhas, h16, hnat, decide_eq_true_eq]
  split
  · simp only [Block.describe, hnat, hcur]
    rw [hdlen]
  · rw [List.append_nil, ← hblock]

/-- A program with a block, run over a message of its tcode, gives what the layout gives (R252, R257). -/
theorem run_program_of_block {m : List Byte} {t : Nibble} (h : 12 ≤ m.length)
    (ht : t.toNat = tcode m) (hb : tcode m = 1 ∨ tcode m = 7) :
    (program (progSel t)).foldl (Progress.run m) (.header m) = .final m := by
  have hshort : ¬ m.length < 12 := by omega
  obtain ⟨ops, hprog, hops⟩ : ∃ ops, program (progSel t) = ops ++ [.block]
      ∧ ops.foldl (Progress.run m) (.header m)
        = ⟨16#32, BitVec.ofNat 16 (dataLength m),
            headerRecords m ++ (layout (tcode m)).flatMap (wholeField m), .zero⟩ := by
    rcases hb with hT | hT <;> rw [hT] at ht <;> obtain ⟨-, rfl⟩ := BitVec.toNat_eq_nat.1 ht
    · refine ⟨[.u16 5#4, .doff, .dlen, .skip 2#4], rfl, ?_⟩
      simp [Progress.run, Progress.report, Progress.advance, Progress.header, layout, dataLength,
        hT]
    · refine ⟨[.u16 5#4, .rcode, .skip 5#4, .dlen, .skip 2#4], rfl, ?_⟩
      simp [Progress.run, Progress.report, Progress.advance, Progress.header, layout, dataLength,
        hT]
  have hcursor : finalCursor m = 16 := by
    rcases hb with hT | hT <;> simp [finalCursor, hshort, hT]
  rw [hprog, List.foldl_concat, hops, Progress.run_block h hb rfl rfl rfl, Progress.final, hcursor,
    records_eq h]

/-- A program without a block does so too (R251, R253 to R256, R258). -/
theorem run_program_of_no_block {m : List Byte} {t : Nibble} (h : 12 ≤ m.length)
    (ht : t.toNat = tcode m) (hb : ¬ (tcode m = 1 ∨ tcode m = 7)) :
    (program (progSel t)).foldl (Progress.run m) (.header m) = .final m := by
  have hshort : ¬ m.length < 12 := by omega
  obtain ⟨h1, h7⟩ := not_or.1 hb
  have hnone : hasBlock m = false := by simp [hasBlock, h1, h7]
  have hblock : Wire.block m = .zero := by simp [Wire.block, hnone]
  have hwhole : wholeBlock m = [] := by simp [wholeBlock, hnone]
  rw [Progress.final, records_eq h, finalCursor, if_neg hshort, hblock, hwhole]
  have hlt : tcode m < 16 := ht ▸ t.isLt
  -- `h1` and `h7` rule out the two tcodes with a block.
  interval_cases hT : tcode m
  all_goals
    obtain ⟨-, rfl⟩ := BitVec.toNat_eq_nat.1 ht
    simp [progSel, program, Progress.run, Progress.report, Progress.advance, Progress.header, layout,
      dataLength, hT] at h1 h7 ⊢

/-- The program of a message's tcode, run from the header, gives what the layout gives the message. -/
theorem run_program {m : List Byte} {t : Nibble} (h : 12 ≤ m.length) (ht : t.toNat = tcode m) :
    (program (progSel t)).foldl (Progress.run m) (.header m) = .final m := by
  by_cases hb : tcode m = 1 ∨ tcode m = 7
  · exact run_program_of_block h ht hb
  · exact run_program_of_no_block h ht hb

/-- A DECODE of 12 bytes or more takes a turn for each micro-op of its program, END among them, one for
the gate, one for the header and one to finish (R351). -/
theorem decodeSteps_eq {m : List Byte} {t : Nibble} (h : 12 ≤ m.length) (ht : t.toNat = tcode m) :
    decodeSteps m = (program (progSel t)).length + 4 := by
  rw [decodeSteps, if_neg (by omega), ← ht]
  clear ht
  decide +revert

end Sys2Proof.Wire
end

section
/-! SUPPORT. The whole of DECODE, phase by phase: what the engine holds when it is done with a message,
with detail or without, and the statement about it (43_message_decoder.md R240 to R246, R285,
70_reset_and_hazards.md R351). -/

namespace Sys2Proof.Machine

open Sys2Proof.Wire

/-! ### The phases of DECODE -/

/-- An accepted DECODE, before its first turn (R240, R241). -/
def State.startDecode (s : State) (detail : Bool) : State :=
  ({ s.accept 3#4 .gate with detailR := detail }).initDecode

/-- An idle engine accepts DECODE (R294). -/
theorem exec_decode_of_idle {s : State} (hidle : s.status.busy = false) :
    exec .decode s = .next (s.startDecode true) := by
  rw [exec_decode, State.command, if_neg (by simp [hidle])]
  rfl

/-- The engine in HDR, past the gate: the summary is valid and nothing else is known (R242). -/
def State.inHdr (s : State) (detail : Bool) : State :=
  { s.startDecode detail with phase := .hdr, summary := { Summary.zero with valid := true } }

/-- The engine in BODY, at the program of this tcode, with the message's summary (R243, R244). -/
def State.inBody (s : State) (m : List Byte) (t : Nibble) : State :=
  { s with
    phase := .body, tcodeR := t, prog := progSel t
    summary := Wire.summary m, sumDestOff := destOff m }

/-- With the header minimum the gate leads to HDR (R242). -/
theorem State.Holds.engineStep_gate {s : State} {m : List Byte} (h : s.Holds m) (detail : Bool)
    (hlen : 12 ≤ m.length) : engineStep (s.startDecode detail) = .next (s.inHdr detail) := by
  have hmin : ¬ s.bufLen.toNat < headerMinimum := by
    rw [h.1]
    exact Nat.not_lt.2 hlen
  exact congrArg (fun p => Host.Outcome.next { s.inHdr detail with phase := p }) (if_neg hmin)

/-- Below it the gate leads to FINISH (R242). -/
theorem State.Holds.engineStep_gate_of_short {s : State} {m : List Byte} (h : s.Holds m)
    (detail : Bool) (hshort : m.length < 12) :
    engineStep (s.startDecode detail) = .next { s.inHdr detail with phase := .finish } := by
  have hmin : s.bufLen.toNat < headerMinimum := by
    rw [h.1]
    exact hshort
  exact congrArg (fun p => Host.Outcome.next { s.inHdr detail with phase := p }) (if_pos hmin)

/-- Nothing of an earlier command is left: the decoding is at its start (R241). -/
theorem State.working_start_inHdr (s : State) (detail : Bool) :
    (s.inHdr detail).working 0 .start = s.inHdr detail := by
  cases detail <;> rfl

/-- The destination record is that of the message (R112, R203). -/
theorem destRecord_eq {m : List Byte} {d : Half} (hd : d.toNat = field m 0 2) :
    (⟨destKind d, 0#32, 2#32, (destId d).setWidth 32⟩ : FieldRec)
      = record (if 0x8000 ≤ field m 0 2 then 2 else 1) 0 2 (field m 0 2 % 0x8000) := by
  have hflag : bootFlag d = decide (0x8000 ≤ d.toNat) := by
    rw [bootFlag, BitVec.getLsbD, Nat.testBit_eq_decide_div_mod_eq, decide_eq_decide]
    omega
  have hid : (destId d).setWidth 32 = BitVec.ofNat 32 (d.toNat % 0x8000) := by
    rw [← BitVec.ofNat_toNat, destId, BitVec.extractLsb'_toNat, Nat.shiftRight_zero]
  rw [← hd, record, destKind, hflag, hid]
  by_cases hboot : 0x8000 ≤ d.toNat <;> simp [hboot, kindBootId, kindDestId]

/-- The label record is that of the message (R113, R203). -/
theorem labelRecord_eq {m : List Byte} {b : Byte} (hb : b.toNat = field m 2 1) :
    (⟨kindTlabel, 2#32, 1#32, (labelOf b).setWidth 32⟩ : FieldRec)
      = record 3 2 1 (field m 2 1 / 4) := by
  have hlabel : (labelOf b).toNat = b.toNat / 4 := by
    have hlt := b.isLt
    rw [labelOf, BitVec.extractLsb'_toNat, Nat.shiftRight_eq_div_pow]
    omega
  rw [record, ← hb, ← hlabel, BitVec.ofNat_toNat]
  rfl

/-- The tcode record is that of the message (R114, R203). -/
theorem tcodeRecord_eq {m : List Byte} {b : Byte} (hb : b.toNat = field m 3 1) :
    (⟨kindTcode, 3#32, 1#32, (tcodeOf b).setWidth 32⟩ : FieldRec) = record 4 3 1 (tcode m) := by
  rw [record, ← tcode_eq hb, BitVec.ofNat_toNat]
  rfl

/-- HDR reports the three header records of the message (R203). -/
theorem State.emitHeader_working (s : State) {m : List Byte} {d : Half} {b2 b3 : Byte}
    (hd : d.toNat = field m 0 2) (hb2 : b2.toNat = field m 2 1) (hb3 : b3.toNat = field m 3 1) :
    (s.working 0 .start).emitHeader d b2 b3
      = s.working 0 { Progress.start with records := headerRecords m } := by
  rw [emitHeader, emit_working, emit_working, emit_working, destRecord_eq hd, labelRecord_eq hb2,
    tcodeRecord_eq hb3]
  case hcount | hcount | hcount => simp [Progress.start]
  rfl

/-- The summary HDR writes after GATE is the message's (R243, R261, R262). -/
theorem summary_ofTcode {m : List Byte} {t : Nibble} (h : 12 ≤ m.length)
    (ht : t.toNat = tcode m) :
    Summary.ofTcode { Summary.zero with valid := true } t = Wire.summary m := by
  have hall : ∀ t : Nibble, Summary.ofTcode { Summary.zero with valid := true } t
      = ⟨true, true, decide (t.toNat = 3 ∨ 8 ≤ t.toNat),
        decide (t.toNat = 0 ∨ t.toNat = 1 ∨ t.toNat = 4 ∨ t.toNat = 5), t⟩ := by decide
  rw [hall, Wire.summary, if_neg (by omega), ← ht, BitVec.ofNat_toNat, BitVec.setWidth_eq]

/-- SUM_DEST_OFF is the address of the message where its layout has one (R262). -/
theorem destOff_eq {m : List Byte} {t : Nibble} (h : 12 ≤ m.length) (ht : t.toNat = tcode m) :
    destOff m = if bearsDest t then BitVec.ofNat 32 (field m 8 4) else 0#32 := by
  rw [destOff, ← summary_ofTcode h ht]
  rfl

/-- HDR's micro-op, over 4 bytes or more, reports the header and moves to its end (R203). -/
theorem State.Holds.exec_hdr_working {s : State} {m : List Byte} (h : s.Holds m)
    (hlen : 4 ≤ m.length) :
    ∃ b, s.memRead1 3 = .ok b ∧ b.toNat = field m 3 1
      ∧ exec .hdr (s.working 0 .start)
        = .next ({ s with tcodeR := tcodeOf b }.working 0 (.header m)) := by
  obtain ⟨d, hd, hdv⟩ := h.memRead2 (k := 0) (by omega)
  obtain ⟨b2, hb2, hb2v⟩ := h.memRead1 (k := 2) (by omega)
  obtain ⟨b3, hb3, hb3v⟩ := h.memRead1 (k := 3) (by omega)
  refine ⟨b3, hb3, hb3v, ?_⟩
  have hreads : exec .hdr (s.working 0 .start)
      = withRead (s.memRead2 0) fun d => withRead (s.memRead1 2) fun b2 =>
        withRead (s.memRead1 3) fun b3 =>
          .next { (s.working 0 .start).emitHeader d b2 b3 with
            tcodeR := tcodeOf b3, cur := 4#32 } := rfl
  rw [hreads, hd, withRead_ok, hb2, withRead_ok, hb3, withRead_ok,
    emitHeader_working s hdv hb2v hb3v]
  rfl

/-- The HDR phase reports the header, writes the summary and dispatches to the tcode's program (R243,
R244). -/
theorem State.Holds.engineStep_hdr {s : State} {m : List Byte} (h : s.Holds m)
    (hlen : 12 ≤ m.length) (hbusy : s.status.busy = true) (hphase : s.phase = .hdr)
    (hsummary : s.summary = { Summary.zero with valid := true }) (hdest : s.sumDestOff = 0#32) :
    ∃ t : Nibble, t.toNat = tcode m
      ∧ engineStep (s.working 0 .start) = .next ((s.inBody m t).working 0 (.header m)) := by
  obtain ⟨b, hb, hbv, hexec⟩ := h.exec_hdr_working (by omega)
  obtain ⟨w, hw, -⟩ := h.memRead4 (k := 0) (by omega)
  obtain ⟨a, ha, hav⟩ := h.memRead4 (k := 8) (by omega)
  have hturn : engineStep (s.working 0 .start) = hdrPhase (s.working 0 .start) := by
    simp [engineStep, phaseStep, State.working, hbusy, hphase]
  have hfetch : fetchHeader (s.working 0 .start) = .ok w := hw
  have htcode := tcode_eq hbv
  refine ⟨tcodeOf b, htcode, ?_⟩
  rw [State.inBody, hturn, hdrPhase, hfetch, withRead_ok, hexec, andThen_next, exec_decodeWire,
    State.tcode_of_header hw hb, ← summary_ofTcode hlen htcode, destOff_eq hlen htcode, ← hav,
    ← hsummary, BitVec.ofNat_toNat, BitVec.setWidth_eq]
  split
  · have haddress : ({ s with tcodeR := tcodeOf b }.working 0 (.header m)).memRead4 8 = .ok a := ha
    rw [State.dispatchDest, haddress]
    rfl
  · rw [← hdest]
    rfl

/-- FINISH copies the working registers of DECODE and completes it (R246, R303). -/
theorem engineStep_finish {s : State} (hbusy : s.status.busy = true) (hphase : s.phase = .finish)
    (hop : s.status.lastOp = 3#4) :
    engineStep s = .next { s with cursor := s.cur, dlenRd := s.dlen }.complete := by
  simp [engineStep, hbusy, phaseStep, hphase, finishPhase, hop]

/-! ### The whole command -/

/-- A turn and then `n` turns. -/
theorem engineRun_succ_of_step {s t : State} (h : engineStep s = .next t) (n : Nat) :
    engineRun (n + 1) s = engineRun n t := by
  rw [engineRun_succ, h, andThen_next]

/-- `a` turns and then `b`. -/
theorem engineRun_add_of_run {a : Nat} {s t : State} (h : engineRun a s = .next t) (b : Nat) :
    engineRun (a + b) s = engineRun b t := by
  induction a generalizing s with
  | zero =>
    cases h
    rw [Nat.zero_add]
  | succ a ih =>
    obtain ⟨u, hu, hrest⟩ := andThen_eq_next h
    rw [Nat.succ_add, engineRun_succ_of_step hu, ih hrest]

/-- The engine done with a DECODE of this message, with detail or without: what the layout gives the
message is in its registers. -/
def State.decoded (s : State) (m : List Byte) (detail : Bool) (t : Nibble) (upc : Nat) : State :=
  { ((s.inHdr detail).inBody m t).working upc (.final m) with
    cursor := (Progress.final m).cur, dlenRd := (Progress.final m).dlen }.complete

/-- Below the header minimum, FINISH follows the gate (R242). -/
theorem State.Holds.engineRun_short {s : State} {m : List Byte} (h : s.Holds m) (detail : Bool)
    (hshort : m.length < 12) :
    engineRun 2 (s.startDecode detail) = .next (s.decoded m detail 0#4 0) := by
  have hsummary : Wire.summary m = { Summary.zero with valid := true } := if_pos hshort
  have hdest : destOff m = 0#32 := by
    rw [destOff, hsummary]
    rfl
  have hend := engineStep_finish (s := { s.inHdr detail with phase := .finish }) rfl rfl rfl
  rw [engineRun_succ_of_step (h.engineStep_gate_of_short detail hshort),
    engineRun_succ_of_step hend, State.decoded, State.inBody, hsummary, hdest,
    Progress.final_of_short hshort]
  cases detail <;> rfl

/-- From the header minimum on, the gate, the header, the program of the tcode and FINISH follow
(R242 to R246). -/
theorem State.Holds.engineRun_whole {s : State} {m : List Byte} (h : s.Holds m)
    (hrom : s.rom = microRom) (detail : Bool) (hlen : 12 ≤ m.length) :
    ∃ t upc, engineRun (decodeSteps m) (s.startDecode detail)
      = .next (s.decoded m detail t upc) := by
  have hinHdr : (s.inHdr detail).Holds m := h
  obtain ⟨t, ht, hhdr⟩ := hinHdr.engineStep_hdr hlen rfl rfl rfl rfl
  rw [State.working_start_inHdr] at hhdr
  have hinBody : ((s.inHdr detail).inBody m t).Holds m := h
  have hlength := length_program_le (progSel t)
  have hcount : (headerRecords m).length + (program (progSel t)).length < 16 :=
    Nat.lt_of_le_of_lt (Nat.add_le_add_left hlength 3) (by decide)
  have hprogram := hinBody.engineRun_program hrom rfl rfl (program (progSel t)) [] (.header m) rfl
    hcount
  rw [run_program hlen ht] at hprogram
  refine ⟨t, (program (progSel t)).length, ?_⟩
  calc engineRun (decodeSteps m) (s.startDecode detail)
    _ = engineRun ((program (progSel t)).length + 1 + 1 + 1 + 1) (s.startDecode detail) := by
      rw [decodeSteps_eq hlen ht]
    _ = engineRun ((program (progSel t)).length + 1 + 1 + 1) (s.inHdr detail) :=
      engineRun_succ_of_step (h.engineStep_gate detail hlen) _
    _ = engineRun ((program (progSel t)).length + 1 + 1)
          (((s.inHdr detail).inBody m t).working 0 (.header m)) :=
      engineRun_succ_of_step hhdr _
    _ = engineRun 1 { ((s.inHdr detail).inBody m t).working (program (progSel t)).length
          (.final m) with phase := .finish } :=
      engineRun_add_of_run hprogram 1
    _ = .next (s.decoded m detail t (program (progSel t)).length) :=
      engineRun_succ_of_step (engineStep_finish rfl rfl rfl) 0

/-- A DECODE of a message BUF holds ends, in the turns of R351, with what the layout gives. -/
theorem State.Holds.engineRun_decode {s : State} {m : List Byte} (h : s.Holds m)
    (hrom : s.rom = microRom) (detail : Bool) :
    ∃ t upc, engineRun (decodeSteps m) (s.startDecode detail)
      = .next (s.decoded m detail t upc) := by
  by_cases hlen : m.length < 12
  · have hsteps : decodeSteps m = 2 := if_pos hlen
    exact ⟨0#4, 0, hsteps ▸ h.engineRun_short detail hlen⟩
  · exact h.engineRun_whole hrom detail (by omega)

/-! ### What the host reads -/

/-- With room for them, the slots in use hold the records (R57). -/
theorem take_slots {rs : List FieldRec} (h : rs.length ≤ 8) :
    (slots rs).toList.take (BitVec.ofNat 4 rs.length).toNat = rs := by
  have hcount : (BitVec.ofNat 4 rs.length).toNat = rs.length := Nat.mod_eq_of_lt (by omega)
  rw [hcount]
  refine List.ext_getElem ?_ fun i h1 h2 => ?_
  · simpa using h
  · simp [slots, h2]

/-- A slot past the records reads 0 (R57). -/
theorem slots_getElem_of_length_le {rs : List FieldRec} {i : Fin 8} (h : rs.length ≤ i.val) :
    (slots rs)[i] = FieldRec.zero := by
  simp only [slots, Fin.getElem_fin, Vector.getElem_ofFn]
  exact List.getD_eq_default _ _ h

/-- The cursor ends inside 32 bits (R88, R281). -/
theorem finalCursor_lt (m : List Byte) : finalCursor m < 2 ^ 32 := by
  unfold finalCursor
  split
  · decide
  · split <;> decide

/-- Settles O21: the engine done with the message holds what the layout gives it. -/
theorem decodeReportsMessage : Obligations.DecodeReportsMessage := by
  intro s m hinv hidle h
  obtain ⟨⟨-, -, hrom⟩, -⟩ := hinv
  obtain ⟨t, upc, hrun⟩ := h.engineRun_decode hrom true
  refine ⟨s.decoded m true t upc, ?_, ?_, fun i hi => slots_getElem_of_length_le hi, rfl, rfl,
    rfl, ?_, ?_, rfl, rfl, rfl, rfl, rfl, rfl, rfl, rfl, rfl, rfl⟩
  · rw [exec_decode_of_idle hidle, andThen_next, hrun]
  · exact take_slots ((length_records_le m).trans (by decide))
  · exact Nat.mod_eq_of_lt (finalCursor_lt m)
  · exact Nat.mod_eq_of_lt (dataLength_lt m)

end Sys2Proof.Machine
end

section
/-! SUPPORT. MATCH (40_signature.md): a command that EXEC runs in one turn and FINISH completes in the next,
the two ways through the EXEC phase of MATCH, and the signature as a mask test of the header word. -/

namespace Sys2Proof.Machine

/-! ### A command of one EXEC turn -/

/-- EXEC's turn is the action of the command LAST_OP names (R36). -/
theorem engineStep_exec {s : State} (hbusy : s.status.busy = true) (hphase : s.phase = .exec) :
    engineStep s = execPhase s := by
  rw [engineStep, if_pos hbusy, phaseStep, hphase]

/-- FINISH of a command but DECODE only completes it (R303). -/
theorem engineStep_finish_of_not_decode {s : State} (hbusy : s.status.busy = true)
    (hphase : s.phase = .finish) (hop : s.status.lastOp ≠ 3#4) :
    engineStep s = .next s.complete := by
  rw [engineStep, if_pos hbusy, phaseStep, hphase]
  simp only [finishPhase, if_neg hop]

/-- A command whose EXEC turn leads to FINISH is complete after two turns (R36, R303). -/
theorem engineRun_two_of_exec {s u : State} {op : Nibble}
    (hexec : execPhase (s.accept op .exec) = .next u) (hbusy : u.status.busy = true)
    (hphase : u.phase = .finish) (hop : u.status.lastOp ≠ 3#4) :
    engineRun 2 (s.accept op .exec) = .next u.complete := by
  have hturn : engineStep (s.accept op .exec) = .next u := by
    rw [engineStep_exec rfl rfl, hexec]
  rw [engineRun_succ_of_step hturn,
    engineRun_succ_of_step (engineStep_finish_of_not_decode hbusy hphase hop), engineRun_zero]

/-! ### MATCH -/

/-- An idle engine accepts MATCH (R294). -/
theorem exec_matchSig_of_idle {s : State} (hidle : s.status.busy = false) :
    exec .matchSig s = .next (s.accept 1#4 .exec) := by
  rw [exec_matchSig, State.command, if_neg (by simp [hidle])]

/-- With 4 bytes in the message MATCH writes their signature (R160, R161). -/
theorem matchPhase_of_reads {s : State} {d : Half} {b2 b3 : Byte} (hlen : 4 ≤ s.bufLen.toNat)
    (hd : s.memRead2 0 = .ok d) (hb2 : s.memRead1 2 = .ok b2) (hb3 : s.memRead1 3 = .ok b3) :
    matchPhase s = .next { s with matchRes := signature d b2 b3, phase := .finish } := by
  have hfits : fits s.bufLen 0#32 4 = true := fits_iff.2 hlen
  rw [matchPhase, if_pos hfits, hd, withRead_ok, hb2, withRead_ok, hb3, withRead_ok]

/-- With fewer it writes 0, and no read stands in the way (R162). -/
theorem matchPhase_of_short {s : State} (hshort : s.bufLen.toNat < 4) :
    matchPhase s = .next { s with matchRes := false, phase := .finish } := by
  have hfits : ¬ fits s.bufLen 0#32 4 = true := fun h => Nat.not_le.2 hshort (fits_iff.1 h)
  rw [matchPhase, if_neg hfits]

/-- An accepted MATCH ends in two turns with what its EXEC phase writes (R160, R303). -/
theorem run_matchSig {s : State} {b : Bool} (hidle : s.status.busy = false)
    (hmatch : matchPhase (s.accept 1#4 .exec)
      = .next { s.accept 1#4 .exec with matchRes := b, phase := .finish }) :
    andThen (exec .matchSig s) (engineRun 2)
      = .next { s with
          phase := .idle
          status := { s.status with busy := false, done := true, lastOp := 1#4 }
          matchRes := b } := by
  have hop : (1#4 : Nibble) ≠ 3#4 := by decide
  have hexec : execPhase (s.accept 1#4 .exec) = matchPhase (s.accept 1#4 .exec) := rfl
  rw [exec_matchSig_of_idle hidle, andThen_next,
    engineRun_two_of_exec (hexec.trans hmatch) rfl rfl hop]
  rfl

/-! ### The signature -/

/-- The signature is the four checks of R161. -/
theorem signature_eq_decide (d : Half) (b2 b3 : Byte) :
    signature d b2 b3 = decide (d = 0#16 ∧ b2 &&& 0x03#8 = 0#8
      ∧ b3 &&& 0xF0#8 ≤ 0x70#8 ∧ b3 &&& 0xF0#8 ≠ 0x30#8 ∧ b3 &&& 0x0F#8 = 0#8) := by
  rw [Bool.eq_iff_iff, signature]
  simp only [Bool.and_eq_true, beq_iff_eq, bne_iff_ne, decide_eq_true_eq, and_assoc]

/-- A word is the half at its start and the two bytes after it: of the header word, destination_id and
bytes 2 and 3 (R87, R111). -/
theorem State.memRead4_eq_append {s : State} {a : Nat} {h : Word} {d : Half} {b2 b3 : Byte}
    (hh : s.memRead4 a = .ok h) (hd : s.memRead2 a = .ok d) (hb2 : s.memRead1 (a + 2) = .ok b2)
    (hb3 : s.memRead1 (a + 3) = .ok b3) : h = d ++ (b2 ++ b3 : Half) := by
  obtain ⟨x, y, hx, hy, rfl⟩ := memRead4_eq_ok.1 hh
  have hlow : s.memRead2 (a + 2) = .ok (b2 ++ b3) :=
    memRead2_eq_ok.2 ⟨b2, b3, memRead1_eq_ok.1 hb2, memRead1_eq_ok.1 hb3, rfl⟩
  rw [hd] at hx
  rw [hlow] at hy
  cases hx
  cases hy
  rfl

/-- A concatenation is 0 exactly when both its parts are. -/
theorem append_eq_zero_iff {m n : Nat} {x : BitVec m} {y : BitVec n} :
    x ++ y = 0#(m + n) ↔ x = 0#m ∧ y = 0#n := by
  simp only [← BitVec.toNat_inj, toNat_append_eq_add, BitVec.toNat_ofNat, Nat.zero_mod,
    Nat.add_eq_zero_iff, Nat.mul_eq_zero, Nat.two_pow_pos n |>.ne', false_or]

/-- The mask of R161 tests destination_id, the reserved label bits and the priority. -/
theorem mask_eq_zero_iff {d : Half} {b2 b3 : Byte} :
    (d ++ (b2 ++ b3 : Half) : Word) &&& 0xFFFF030F#32 = 0#32 ↔
      d = 0#16 ∧ b2 &&& 0x03#8 = 0#8 ∧ b3 &&& 0x0F#8 = 0#8 := by
  have hmask : 0xFFFF030F#32 = BitVec.allOnes 16 ++ (0x03#8 ++ 0x0F#8 : Half) := by decide
  rw [hmask, BitVec.and_append, BitVec.and_append, append_eq_zero_iff, append_eq_zero_iff,
    BitVec.and_allOnes]

/-- H[7:4] is the tcode of byte 3 (R111, R114). -/
theorem State.toNat_header_tcode {s : State} {w : Word} {b : Byte} (hw : s.memRead4 0 = .ok w)
    (hb : s.memRead1 3 = .ok b) : w.toNat / 16 % 16 = (tcodeOf b).toNat := by
  rw [← tcode_of_header hw hb, BitVec.extractLsb'_toNat, Nat.shiftRight_eq_div_pow]

/-- R161 compares the tcode in its place in byte 3. -/
theorem and_high_nibble (b : Byte) : b &&& 0xF0#8 = tcodeOf b ++ 0#4 := by
  have hsplit : b = tcodeOf b ++ b.extractLsb' 0 4 := by
    rw [tcodeOf, BitVec.extractLsb'_append_extractLsb'_eq_extractLsb' (rfl : 4 = 0 + 4)]
    exact BitVec.extractLsb'_eq_self.symm
  have hmask : 0xF0#8 = BitVec.allOnes 4 ++ 0#4 := by decide
  calc b &&& 0xF0#8
    _ = (tcodeOf b ++ b.extractLsb' 0 4) &&& (BitVec.allOnes 4 ++ 0#4) := by rw [← hsplit, hmask]
    _ = tcodeOf b ++ 0#4 := by rw [BitVec.and_append, BitVec.and_allOnes, BitVec.and_zero]

/-- The tcodes that pass R161 are those R115 defines. -/
theorem valid_tcode_iff : ∀ t : Nibble,
    t ++ 0#4 ≤ 0x70#8 ∧ t ++ 0#4 ≠ 0x30#8 ↔ t.toNat ∈ [0, 1, 2, 4, 5, 6, 7] := by
  decide

/-! ### The statements -/

/-- Settles O13: EXEC reads the four bytes and writes their signature, FINISH completes. -/
theorem matchRunsToResult : Obligations.MatchRunsToResult := by
  intro s d b2 b3 hidle hlen hd hb2 hb3
  refine ⟨exec_matchSig_of_idle hidle, ?_⟩
  rw [run_matchSig hidle (matchPhase_of_reads hlen hd hb2 hb3), signature_eq_decide]

/-- Settles O15: the mask tests all but the tcode, and the tcode is H[7:4]. -/
theorem signatureMaskForm : Obligations.SignatureMaskForm := by
  intro s h d b2 b3 hh hd hb2 hb3
  rw [State.toNat_header_tcode hh hb3, State.memRead4_eq_append hh hd hb2 hb3, signature_eq_decide,
    decide_eq_true_iff, mask_eq_zero_iff, and_high_nibble, ← valid_tcode_iff]
  tauto

/-- Settles O14: EXEC takes the branch without reads, FINISH completes. -/
theorem matchShortBuffer : Obligations.MatchShortBuffer :=
  fun _ hidle hshort => run_matchSig hidle (matchPhase_of_short hshort)

end Sys2Proof.Machine
end

section
/-! SUPPORT. MSGLEN (41_length_oracle.md): the length as a function of what is read at ORC_OFF, the two ways
through the EXEC phase, the whole command, and the statements about it. -/

namespace Sys2Proof.Machine

/-! ### The length, read from BUF -/

/-- The tcode is the high nibble of its byte (R114). -/
theorem toNat_tcodeOf (b : Byte) : (tcodeOf b).toNat = b.toNat / 16 := by
  have hlt := b.isLt
  rw [tcodeOf, BitVec.extractLsb'_toNat, Nat.shiftRight_eq_div_pow]
  omega

/-- The tcodes with a data block are 1 and 7 (R184, R274). -/
theorem bearsBlock_iff : ∀ t : Nibble, bearsBlock t = true ↔ t.toNat = 1 ∨ t.toNat = 7 := by decide

/-- The base lengths of R183, as a choice between the three lists of tcodes. -/
theorem oracleBase_eq_ite : ∀ t : Nibble,
    oracleBase t =
      if t.toNat = 0 ∨ t.toNat = 1 ∨ t.toNat = 5 ∨ t.toNat = 6 ∨ t.toNat = 7 then 16
      else if t.toNat = 2 ∨ t.toNat = 4 then 12
      else 8 := by decide

/-- MSGLEN reads data_length: the tcode bears a block, and 14 bytes are available (R184, R185). -/
abbrev State.ReadsDataLength (s : State) (t : Nibble) : Prop :=
  (t.toNat = 1 ∨ t.toNat = 7) ∧ s.orcOff.toNat + 14 ≤ s.bufLen.toNat

/-- EXEC tests it on the bytes available at ORC_OFF (R181). -/
theorem State.dataLength_guard_iff (s : State) (t : Nibble) :
    (bearsBlock t && decide (14 ≤ s.bufLen.toNat - s.orcOff.toNat)) = true
      ↔ s.ReadsDataLength t := by
  rw [Bool.and_eq_true, bearsBlock_iff, decide_eq_true_eq]
  exact and_congr_right fun _ => by omega

/-- The length of the message at ORC_OFF, from the tcode's byte and, where it counts, data_length, or the
fault of the byte without a value (R182 to R186). -/
def State.oracleLength (s : State) : Except Fault Nat :=
  (s.memRead1 (s.orcOff.toNat + 3)).bind fun b =>
    if s.ReadsDataLength (tcodeOf b) then
      (s.memRead2 (s.orcOff.toNat + 12)).map fun n => oracleBase (tcodeOf b) + n.toNat
    else .ok (oracleBase (tcodeOf b))

/-- A block's length counts where data_length is read (R184). -/
theorem State.oracleLength_of_block {s : State} {b : Byte} {n : Half}
    (hb : s.memRead1 (s.orcOff.toNat + 3) = .ok b) (hreads : s.ReadsDataLength (tcodeOf b))
    (hn : s.memRead2 (s.orcOff.toNat + 12) = .ok n) :
    s.oracleLength = .ok (16 + n.toNat) := by
  have hbase : oracleBase (tcodeOf b) = 16 := by
    obtain ⟨htcode, -⟩ := hreads
    rw [oracleBase_eq_ite, if_pos (by omega)]
  rw [oracleLength, hb, Except.bind, if_pos hreads, hn, Except.map, hbase]

/-- Elsewhere the length is the base length (R183, R185). -/
theorem State.oracleLength_of_base {s : State} {b : Byte}
    (hb : s.memRead1 (s.orcOff.toNat + 3) = .ok b) (hreads : ¬ s.ReadsDataLength (tcodeOf b)) :
    s.oracleLength = .ok (oracleBase (tcodeOf b)) := by
  rw [oracleLength, hb, Except.bind, if_neg hreads]

/-- MemRead(a, 1) depends on that byte of BUF alone. -/
theorem State.memRead1_congr {s s' : State} {a : Nat} (h : s'.buf.read? a = s.buf.read? a) :
    s'.memRead1 a = s.memRead1 a := by
  rw [memRead1, memRead1, h]

/-- MemRead(a, 2) depends on those two bytes of BUF alone. -/
theorem State.memRead2_congr {s s' : State} {a : Nat} (h0 : s'.buf.read? a = s.buf.read? a)
    (h1 : s'.buf.read? (a + 1) = s.buf.read? (a + 1)) : s'.memRead2 a = s.memRead2 a := by
  rw [memRead2, memRead2, memRead1_congr h0, memRead1_congr h1]

/-- The length depends on BUF_LEN, ORC_OFF and the bytes at offsets 3, 12 and 13 alone (R187). -/
theorem State.oracleLength_congr {s s' : State} (hlen : s.bufLen = s'.bufLen)
    (horc : s.orcOff = s'.orcOff)
    (hbytes : ∀ k, k = 3 ∨ k = 12 ∨ k = 13 →
      s'.buf.read? (s.orcOff.toNat + k) = s.buf.read? (s.orcOff.toNat + k)) :
    s'.oracleLength = s.oracleLength := by
  have htcode := memRead1_congr (hbytes 3 (by decide))
  have hdlen := memRead2_congr (hbytes 12 (by decide)) (hbytes 13 (by decide))
  simp only [oracleLength, ReadsDataLength, ← hlen, ← horc, htcode, hdlen]

/-! ### The EXEC phase -/

/-- With 4 bytes at ORC_OFF, EXEC puts the length it reads into MSGLEN_RES (R180, R182 to R186). -/
theorem msglenPhase_of_available {s : State} (havail : s.orcOff.toNat + 4 ≤ s.bufLen.toNat) :
    msglenPhase s = withRead s.oracleLength fun n => .next (s.setMsglen n) := by
  have hguard : s.orcOff.toNat ≤ s.bufLen.toNat ∧ 4 ≤ s.bufLen.toNat - s.orcOff.toNat := by omega
  simp only [msglenPhase, if_pos hguard, State.oracleLength]
  cases s.memRead1 (s.orcOff.toNat + 3) with
  | error f => rfl
  | ok b =>
    simp only [withRead_ok, Except.bind, messageLength, s.dataLength_guard_iff]
    split
    · cases s.memRead2 (s.orcOff.toNat + 12) <;> rfl
    · rfl

/-- With fewer, EXEC reads nothing and records E_ORC_SHORT (R181, R295). -/
theorem msglenPhase_of_short {s : State} (hshort : s.bufLen.toNat < s.orcOff.toNat + 4) :
    msglenPhase s = .next (({ s with
      msglenRes := Config.freeMsglen s.draws
      draws := s.draws + 1
      phase := .finish }).raise .orcShort) := by
  have hguard : ¬ (s.orcOff.toNat ≤ s.bufLen.toNat ∧ 4 ≤ s.bufLen.toNat - s.orcOff.toNat) := by omega
  simp only [msglenPhase, if_neg hguard]

/-! ### The whole command -/

/-- An idle engine accepts MSGLEN (R294). -/
theorem exec_msglen_of_idle {s : State} (hidle : s.status.busy = false) :
    exec .msglen s = .next (s.accept 2#4 .exec) := by
  rw [exec_msglen, State.command, if_neg (by simp [hidle])]

/-- An accepted MSGLEN completes in two turns when its EXEC phase goes on to FINISH (R180, R303). -/
theorem run_msglen_of_phase {s u : State} (hidle : s.status.busy = false)
    (hphase : msglenPhase (s.accept 2#4 .exec) = .next u) (hbusy : u.status.busy = true)
    (hfinish : u.phase = .finish) (hop : u.status.lastOp = 2#4) :
    andThen (exec .msglen s) (engineRun 2) = .next u.complete := by
  have hexec : execPhase (s.accept 2#4 .exec) = msglenPhase (s.accept 2#4 .exec) := rfl
  have hdecode : u.status.lastOp ≠ 3#4 := by rw [hop]; decide
  rw [exec_msglen_of_idle hidle, andThen_next,
    engineRun_two_of_exec (hexec.trans hphase) hbusy hfinish hdecode]

/-- MSGLEN stops in its EXEC phase at a byte without a value (R333). -/
theorem run_msglen_of_fault {s : State} {f : Fault} (hidle : s.status.busy = false)
    (hphase : msglenPhase (s.accept 2#4 .exec) = .fault f) :
    andThen (exec .msglen s) (engineRun 2) = .fault f := by
  have hturn : engineStep (s.accept 2#4 .exec) = .fault f :=
    (engineStep_exec rfl rfl).trans hphase
  rw [exec_msglen_of_idle hidle, andThen_next, engineRun_succ, hturn, andThen_fault]

/-- This engine after an MSGLEN with a length. -/
def State.measured (s : State) (n : Nat) : State :=
  { s with
    phase := .idle
    status := { s.status with busy := false, done := true, lastOp := 2#4 }
    msglenRes := BitVec.ofNat 32 n }

/-- With 4 bytes at ORC_OFF, MSGLEN ends with the length it reads, in two turns (R180, R303). -/
theorem run_msglen_of_available {s : State} (hidle : s.status.busy = false)
    (havail : s.orcOff.toNat + 4 ≤ s.bufLen.toNat) :
    andThen (exec .msglen s) (engineRun 2)
      = withRead s.oracleLength fun n => .next (s.measured n) := by
  have hphase : msglenPhase (s.accept 2#4 .exec)
      = withRead s.oracleLength fun n => .next ((s.accept 2#4 .exec).setMsglen n) :=
    msglenPhase_of_available havail
  cases hlength : s.oracleLength with
  | error f => exact run_msglen_of_fault hidle (by rw [hphase, hlength, withRead_error])
  | ok n =>
    rw [hlength, withRead_ok] at hphase
    exact run_msglen_of_phase hidle hphase rfl rfl rfl

/-! ### The statements -/

/-- Settles O16: the length is that of a block where data_length is read, and the base length elsewhere. -/
theorem msglenRunsToResult : Obligations.MsglenRunsToResult := by
  intro s b n t hidle havail hb ht hn
  rw [← toNat_tcodeOf] at ht
  subst ht
  refine ⟨exec_msglen_of_idle hidle, ?_⟩
  rw [run_msglen_of_available hidle havail]
  by_cases hreads : s.ReadsDataLength (tcodeOf b)
  · have hlength := State.oracleLength_of_block hb hreads (hn hreads.1 hreads.2)
    rw [hlength, withRead_ok, if_pos hreads]
    rfl
  · rw [State.oracleLength_of_base hb hreads, withRead_ok, if_neg hreads, State.measured,
      oracleBase_eq_ite, apply_ite (BitVec.ofNat 32), apply_ite (BitVec.ofNat 32)]

/-- Settles O17: EXEC takes the branch without reads, FINISH completes. -/
theorem msglenShortRaisesOrcShort : Obligations.MsglenShortRaisesOrcShort := by
  intro s hidle hshort
  have hphase := msglenPhase_of_short (s := s.accept 2#4 .exec) hshort
  exact ⟨Config.freeMsglen s.draws, run_msglen_of_phase hidle hphase rfl rfl rfl⟩

/-- Settles O18: both runs read one length, and a run leaves what it read as it was. -/
theorem msglenDependsOnPrefixOnly : Obligations.MsglenDependsOnPrefixOnly := by
  intro s s' t t' hidle hidle' hlen horc havail hbytes ht ht'
  have havail' : s'.orcOff.toNat + 4 ≤ s'.bufLen.toNat := by rwa [← hlen, ← horc]
  rw [run_msglen_of_available hidle havail] at ht
  rw [run_msglen_of_available hidle' havail', State.oracleLength_congr hlen horc hbytes] at ht'
  obtain ⟨n, hn, ht⟩ := withRead_next ht
  rw [hn] at ht'
  cases ht
  cases ht'
  have hagain : (s.measured n).oracleLength = .ok n := hn
  refine ⟨rfl, rfl, ?_⟩
  rw [run_msglen_of_available (s := s.measured n) rfl havail, hagain]
  rfl

end Sys2Proof.Machine
end

section
/-! SUPPORT. The field cursor, one statement per primitive: Emit, the header's values as numbers, and a
guarded read with its field whole and cut off (42_field_cursor.md R200 to R211). -/

namespace Sys2Proof.Machine

/-! ### Values of a byte as numbers -/

/-- A value zero-extended to a register is its number. -/
theorem setWidth_eq_ofNat {n k : Nat} {x : BitVec n} (h : x.toNat = k) :
    x.setWidth 32 = BitVec.ofNat 32 k := by
  rw [← h, BitVec.ofNat_toNat]

/-- The boot-id flag is bit 15 of destination_id, so the kind is told by its size (R112, R203). -/
theorem destKind_eq_ite (d : Half) : destKind d = if 0x8000 ≤ d.toNat then 2#4 else 1#4 := by
  have hflag : bootFlag d = decide (0x8000 ≤ d.toNat) := by
    rw [bootFlag, BitVec.getLsbD, Nat.testBit_eq_decide_div_mod_eq, decide_eq_decide]
    omega
  simp only [destKind, hflag, decide_eq_true_eq]
  rfl

/-- The destination or boot id is destination_id without its top bit (R112). -/
theorem toNat_destId (d : Half) : (destId d).toNat = d.toNat % 0x8000 := by
  rw [destId, BitVec.extractLsb'_toNat, Nat.shiftRight_zero]

/-- The label is the upper six bits of byte 2 (R113). -/
theorem toNat_labelOf (b : Byte) : (labelOf b).toNat = b.toNat / 4 := by
  have hlt := b.isLt
  rw [labelOf, BitVec.extractLsb'_toNat, Nat.shiftRight_eq_div_pow]
  omega

/-- The tcode is the high nibble of byte 3 (R114). -/
theorem tcodeOf_eq_ofNat (b : Byte) : tcodeOf b = BitVec.ofNat 4 (b.toNat / 16) := by
  rw [← toNat_tcodeOf, BitVec.ofNat_toNat, BitVec.setWidth_eq]

/-! ### Emit and HDR -/

/-- Settles O31: with detail one slot is set, and reads back; without, Emit is the identity. -/
theorem emitAppendsRecord : Obligations.EmitAppendsRecord := by
  intro s kind start len value
  refine ⟨fun hd => State.emit_of_summaryOnly hd _ _ _ _, fun hd _ => ⟨_, rfl, ?_, fun i => ?_⟩⟩
  · rw [State.emit_of_detail hd]
  · rw [State.emit_fields, if_pos hd]
    simp only [Fin.getElem_fin, Vector.getElem_setIfInBounds, eq_comm]

/-- HDR over four bytes with a value reports them as the header (R203). -/
theorem exec_hdr_of_reads {s : State} {d : Half} {b2 b3 : Byte} (hd : s.memRead2 0 = .ok d)
    (hb2 : s.memRead1 2 = .ok b2) (hb3 : s.memRead1 3 = .ok b3) :
    exec .hdr s = .next { s.emitHeader d b2 b3 with tcodeR := tcodeOf b3, cur := 4#32 } := by
  have hreads : exec .hdr s
      = withRead (s.memRead2 0) fun d => withRead (s.memRead1 2) fun b2 =>
        withRead (s.memRead1 3) fun b3 =>
          .next { s.emitHeader d b2 b3 with tcodeR := tcodeOf b3, cur := 4#32 } := rfl
  rw [hreads, hd, withRead_ok, hb2, withRead_ok, hb3, withRead_ok]

/-- Settles O32: the fields HDR cuts from the bytes are the numbers stated. -/
theorem hdrReportsHeader : Obligations.HdrReportsHeader := by
  intro s d b2 b3 hd hb2 hb3
  rw [exec_hdr_of_reads hd hb2 hb3, State.emitHeader, destKind_eq_ite,
    setWidth_eq_ofNat (toNat_destId d), setWidth_eq_ofNat (toNat_labelOf b2),
    setWidth_eq_ofNat (toNat_tcodeOf b3), tcodeOf_eq_ofNat]
  rfl

/-! ### Guarded reads -/

/-- A field that is whole is read (R201). -/
theorem guarded_of_whole {α : Type} {len cur : Word} {w : Nat} {r : Except Fault α} {v : α}
    {next : α → Res State} {cut : Res State} (hwhole : cur.toNat + w ≤ len.toNat)
    (hr : r = .ok v) : (if fits len cur w then withRead r next else cut) = next v := by
  rw [if_pos (fits_iff.2 hwhole), hr, withRead_ok]

/-- A field that is cut off is passed over unread (R201). -/
theorem guarded_of_cut {len cur : Word} {w : Nat} {whole cut : Res State}
    (hcut : len.toNat < cur.toNat + w) : (if fits len cur w then whole else cut) = cut :=
  if_neg fun h => Nat.not_le.2 hcut (fits_iff.1 h)

/-- Settles O33: U16 is a guarded read of two bytes. -/
theorem u16ReportsWhatFits : Obligations.U16ReportsWhatFits := by
  intro s kind v
  obtain ⟨hdecode, -, -⟩ := decode_encode_arg kind
  exact ⟨hdecode, fun hwhole hread => guarded_of_whole hwhole hread, fun hcut => guarded_of_cut hcut⟩

/-- Settles O34: U32 is a guarded read of four bytes. -/
theorem u32ReportsWhatFits : Obligations.U32ReportsWhatFits := by
  intro s kind v
  obtain ⟨-, hdecode, -⟩ := decode_encode_arg kind
  exact ⟨hdecode, fun hwhole hread => guarded_of_whole hwhole hread, fun hcut => guarded_of_cut hcut⟩

/-- Settles O35: the rcode is cut from its byte as the tcode is from byte 3 (R114, R119). -/
theorem rcodeReportsHighNibble : Obligations.RcodeReportsHighNibble := by
  intro s b
  have hvalue : (rcodeOf b).setWidth 32 = BitVec.ofNat 32 (b.toNat / 16) :=
    setWidth_eq_ofNat (toNat_tcodeOf b)
  refine ⟨rfl, fun hwhole hread => ?_, fun hcut => guarded_of_cut hcut⟩
  rw [← hvalue]
  exact guarded_of_whole hwhole hread

/-- Settles O36: SKIP's count is zero-extended to the cursor's width. -/
theorem skipAdvancesEndFinishes : Obligations.SkipAdvancesEndFinishes := by
  intro s n
  obtain ⟨-, -, hdecode⟩ := decode_encode_arg n
  refine ⟨hdecode, ?_, rfl, rfl⟩
  rw [← BitVec.ofNat_toNat]
  rfl

/-- Settles O37: the guard stands at the cursor two bytes on. -/
theorem doffReportsAddress : Obligations.DoffReportsAddress := by
  rintro s a c rfl
  exact ⟨rfl, fun hwhole hread => guarded_of_whole hwhole hread, fun hcut => guarded_of_cut hcut⟩

/-- Settles O38: DLEN is a guarded read of two bytes that holds a value in both branches. -/
theorem dlenHoldsLength : Obligations.DlenHoldsLength := by
  intro s v
  exact ⟨rfl, fun hwhole hread => guarded_of_whole hwhole hread, fun hcut => guarded_of_cut hcut⟩

/-- Settles O39: the guard decides with detail; without it neither branch does anything. -/
theorem blockIsAllOrNothing : Obligations.BlockIsAllOrNothing := by
  refine fun s => ⟨rfl, fun hwhole hdetail => ?_, ?_⟩
  · have hblock : exec .block s = .next { s.emit kindDataBlock s.cur (s.dlen.setWidth 32)
          (s.dlen.setWidth 32) with
        block := if s.detailR then .describe s.cur s.dlen else s.block } :=
      if_pos (fits_iff.2 hwhole)
    rw [hblock, if_pos hdetail]
    rfl
  · rintro (hcut | hdetail)
    · exact guarded_of_cut hcut
    · exact execBlock_of_summaryOnly hdetail

end Sys2Proof.Machine
end

section
/-! SUPPORT. Truncation: the fields of a layout stand in the order in which they end, so a truncated
message reports the first of the whole message's records (42_field_cursor.md R201, R202, R212). -/

namespace Sys2Proof.Wire

open Sys2Proof.Machine

/-! ### Numbers of a truncated message -/

/-- A field inside a truncated message is that of the whole message. -/
theorem field_of_prefix {p m : List Byte} {k n : Nat} (hp : p <+: m) (h : k + n ≤ p.length) :
    field p k n = field m k n := by
  obtain ⟨rest, rfl⟩ := hp
  rw [field, field, List.drop_append_of_le_length (by omega),
    List.take_append_of_le_length (by rw [List.length_drop]; omega)]

/-- With its four bytes the tcode is that of the whole message. -/
theorem tcode_of_prefix {p m : List Byte} (hp : p <+: m) (h : 4 ≤ p.length) :
    tcode p = tcode m := by
  rw [tcode, tcode, field_of_prefix hp h]

/-- With its four bytes the header is that of the whole message. -/
theorem headerRecords_of_prefix {p m : List Byte} (hp : p <+: m) (h : 4 ≤ p.length) :
    headerRecords p = headerRecords m := by
  rw [headerRecords, headerRecords, tcode_of_prefix hp h, field_of_prefix hp (by omega),
    field_of_prefix hp (by omega)]

/-- With 14 bytes the data_length is that of the whole message. -/
theorem dataLength_of_prefix {p m : List Byte} (hp : p <+: m) (h : 14 ≤ p.length) :
    dataLength p = dataLength m := by
  have hm : 14 ≤ m.length := h.trans hp.length_le
  have hfield : field p 12 2 = field m 12 2 := field_of_prefix hp h
  simp only [dataLength, tcode_of_prefix hp (by omega), hfield, h, hm]

/-! ### Records of a truncated message -/

/-- A field that a truncated message holds whole is reported as that of the whole message. -/
theorem wholeField_of_prefix {p m : List Byte} {f : Slot} (hp : p <+: m)
    (h : f.start + f.width ≤ p.length) : wholeField p f = wholeField m f := by
  rw [wholeField, wholeField, if_pos h, if_pos (h.trans hp.length_le), reported, reported,
    field_of_prefix hp h]

/-- Fields that are all cut off are none of them reported (R201). -/
theorem flatMap_wholeField_of_cut {p : List Byte} {l : List Slot}
    (h : ∀ f ∈ l, ¬ f.start + f.width ≤ p.length) : l.flatMap (wholeField p) = [] :=
  List.flatMap_eq_nil_iff.2 fun f hf => if_neg (h f hf)

/-- Of fields in the order of their ends, a truncated message reports the first of those the whole one
does: past the first that is cut off, all are. -/
theorem flatMap_wholeField_prefix {p m : List Byte} {l : List Slot} (hp : p <+: m)
    (hl : l.Pairwise fun f g => f.start + f.width ≤ g.start + g.width) :
    l.flatMap (wholeField p) <+: l.flatMap (wholeField m) := by
  induction l with
  | nil => exact List.prefix_rfl
  | cons f l ih =>
    obtain ⟨hfirst, hrest⟩ := List.pairwise_cons.1 hl
    by_cases hf : f.start + f.width ≤ p.length
    · rw [List.flatMap_cons, List.flatMap_cons, wholeField_of_prefix hp hf]
      exact (List.prefix_append_right_inj _).2 (ih hrest)
    · rw [flatMap_wholeField_of_cut]
      · exact List.nil_prefix
      · rintro g (_ | ⟨_, hg⟩)
        · exact hf
        · have := hfirst g hg
          omega

/-- Every layout lists its fields in the order in which they end, the last by byte 16 (R116). -/
theorem layout_ordered (t : Nat) :
    (layout t).Pairwise (fun f g => f.start + f.width ≤ g.start + g.width)
      ∧ ∀ f ∈ layout t, f.start + f.width ≤ 16 := by
  unfold layout
  split <;> decide

/-- A message has a whole block when its variant has one and the block lies inside it; the header minimum
then does too (R210, R274). -/
theorem hasBlock_iff {m : List Byte} :
    hasBlock m = true ↔ (tcode m = 1 ∨ tcode m = 7) ∧ 16 + dataLength m ≤ m.length := by
  simp only [hasBlock, Bool.and_eq_true, Bool.or_eq_true, decide_eq_true_eq, beq_iff_eq]
  omega

/-- A block that a truncated message holds whole is that of the whole message. -/
theorem wholeBlock_of_prefix {p m : List Byte} (hp : p <+: m) (h : hasBlock p = true) :
    wholeBlock p = wholeBlock m := by
  obtain ⟨htcode, hlen⟩ := hasBlock_iff.1 h
  have hle := hp.length_le
  have hdlen : dataLength p = dataLength m := dataLength_of_prefix hp (by omega)
  have hm : hasBlock m = true :=
    hasBlock_iff.2 ⟨tcode_of_prefix hp (by omega) ▸ htcode, by omega⟩
  rw [wholeBlock, wholeBlock, if_pos h, if_pos hm, hdlen]

/-- A truncated message reports the first of the whole message's records (R212). -/
theorem records_prefix {p m : List Byte} (hp : p <+: m) : records p <+: records m := by
  by_cases hshort : p.length < 12
  · rw [records, if_pos hshort]
    exact List.nil_prefix
  · have hle := hp.length_le
    obtain ⟨hordered, hends⟩ := layout_ordered (tcode m)
    rw [records_eq (m := p) (by omega), records_eq (m := m) (by omega),
      headerRecords_of_prefix hp (by omega), tcode_of_prefix hp (by omega)]
    cases hblock : hasBlock p with
    | true =>
      obtain ⟨-, hlen⟩ := hasBlock_iff.1 hblock
      have hfields : (layout (tcode m)).flatMap (wholeField p)
          = (layout (tcode m)).flatMap (wholeField m) :=
        List.flatMap_congr fun f hf => wholeField_of_prefix hp ((hends f hf).trans (by omega))
      rw [hfields, wholeBlock_of_prefix hp hblock]
    | false =>
      have hnone : wholeBlock p = [] := if_neg (by simp [hblock])
      rw [hnone, List.append_nil]
      exact ((List.prefix_append_right_inj _).2 (flatMap_wholeField_prefix hp hordered)).trans
        (List.prefix_append _ _)

end Sys2Proof.Wire

namespace Sys2Proof.Machine

/-- A DECODE of a message BUF holds ends with the records of the message's layout (R116). -/
theorem records_of_run_decode {s u : State} {m : List Byte} (hinv : s.Inv)
    (hidle : s.status.busy = false) (h : s.Holds m)
    (hrun : andThen (exec .decode s) (engineRun (Wire.decodeSteps m)) = .next u) :
    u.records = Wire.records m := by
  obtain ⟨v, hv, hrecords, -⟩ := decodeReportsMessage s m hinv hidle h
  cases hv.symm.trans hrun
  exact hrecords

/-- Settles O26: both runs report what the layout gives, and truncation keeps the first bytes. -/
theorem truncationReportsPrefix : Obligations.TruncationReportsPrefix := by
  intro s s' u u' m k hinv hidle h hinv' hidle' h' hrun hrun'
  rw [records_of_run_decode hinv hidle h hrun, records_of_run_decode hinv' hidle' h' hrun']
  exact Wire.records_prefix (List.take_prefix k m)

end Sys2Proof.Machine
end

section
/-! SUPPORT. Two decodings of one message: with detail and without, and in two engines with different pasts;
and the statements about them (43_message_decoder.md R240, R241, R263, R285). -/

namespace Sys2Proof.Machine

/-! ### With detail and without -/

/-- An idle engine accepts DECODE.S (R294). -/
theorem exec_decodeS_of_idle {s : State} (hidle : s.status.busy = false) :
    exec .decodeS s = .next (s.startDecode false) := by
  rw [exec_decodeS, State.command, if_neg (by simp [hidle])]
  rfl

/-- Slots without a record are all cleared (R57). -/
theorem slots_nil : slots [] = Vector.replicate 8 FieldRec.zero := by decide

/-- Settles O22: both runs end with what the layout gives the message, and DETAIL only hides the records
and the block. -/
theorem summaryIndependentOfDetail : Obligations.SummaryIndependentOfDetail := by
  intro s m hinv hidle h
  obtain ⟨⟨-, -, hrom⟩, -⟩ := hinv
  obtain ⟨t, upc, hdetail⟩ := h.engineRun_decode hrom true
  obtain ⟨t', upc', hsummary⟩ := h.engineRun_decode hrom false
  refine ⟨s.decoded m true t upc, s.decoded m false t' upc', ?_, ?_, rfl, rfl, rfl, rfl, rfl, rfl,
    rfl, slots_nil, rfl, ?_⟩
  · rw [exec_decode_of_idle hidle, andThen_next, hdetail]
  · rw [exec_decodeS_of_idle hidle, andThen_next, hsummary]
  · rintro v (rfl | rfl) <;> exact ⟨rfl, rfl, rfl, rfl, rfl, rfl, rfl⟩

/-- Settles O19: Init clears what R241 lists, for both commands. -/
theorem decodeStartsFresh : Obligations.DecodeStartsFresh := by
  rintro s hidle i detail (⟨rfl, rfl⟩ | ⟨rfl, rfl⟩)
  · exact exec_decode_of_idle hidle
  · exact exec_decodeS_of_idle hidle

/-! ### The same decoding over another past -/

/-- A DECODE is running: the engine is busy with it (R36, R43). -/
def State.Decoding (s : State) : Prop := s.status.busy = true ∧ s.status.lastOp = 3#4

/-- The decoding of `s` in an engine with the past of `x`: the registers a running DECODE neither reads nor
writes are those of `x`. -/
def State.withPast (s x : State) : State :=
  { s with
    status := x.status, irqEn := x.irqEn, orcOff := x.orcOff
    matchRes := x.matchRes, msglenRes := x.msglenRes
    cursor := x.cursor, dlenRd := x.dlenRd, viewSel := x.viewSel
    bufCap := x.bufCap, agenda := x.agenda, response := x.response, draws := x.draws }

/-- With the past of `x` an action does what it does without, and leaves that past in place; a fault or a
refusal is the same one. -/
def KeepsPast (x : State) (act : State → Res State) : Prop :=
  ∀ s : State, act (s.withPast x) = andThen (act s) fun t => .next (t.withPast x)

/-- Going on after a read that was followed by more is going on inside it. -/
theorem andThen_withRead {α : Type} (r : Except Fault α) (k : α → Res State)
    (f : State → Res State) :
    andThen (withRead r k) f = withRead r fun v => andThen (k v) f := by
  cases r <;> rfl

/-- Going on after a choice is going on after each branch. -/
theorem andThen_ite (c : Prop) [Decidable c] (a b : Res State) (f : State → Res State) :
    andThen (if c then a else b) f = if c then andThen a f else andThen b f := by
  split <;> rfl

/-- Two actions that each keep the past keep it in sequence. -/
theorem KeepsPast.seq {x : State} {act next : State → Res State} (hact : KeepsPast x act)
    (hnext : KeepsPast x next) : KeepsPast x fun s => andThen (act s) next := by
  intro s
  simp only [hact s, andThen_assoc, andThen_next, hnext _]

/-- A micro-op of a program reads BUF, BUF_LEN and the decoding alone (R200 to R210). -/
theorem keepsPast_exec_fieldOp (x : State) {i : Instr} (hi : i.isFieldOp = true) :
    KeepsPast x (exec i) := by
  intro s
  cases i with
  | u16 kind => simp only [exec, execU16, andThen_ite, andThen_withRead, andThen_next]; rfl
  | u32 kind => simp only [exec, execU32, andThen_ite, andThen_withRead, andThen_next]; rfl
  | rcode => simp only [exec, execRcode, andThen_ite, andThen_withRead, andThen_next]; rfl
  | skip n => rfl
  | doff => simp only [exec, execDoff, andThen_ite, andThen_withRead, andThen_next]; rfl
  | dlen => simp only [exec, execDlen, andThen_ite, andThen_withRead, andThen_next]; rfl
  | block => simp only [exec, execBlock, andThen_ite, andThen_next]; rfl
  | _ => cases hi

/-- HDR's micro-op does too (R203). -/
theorem keepsPast_exec_hdr (x : State) : KeepsPast x (exec .hdr) := by
  intro s
  simp only [exec, execHdr, andThen_withRead, andThen_next]
  rfl

/-- So does every variant (R243, R244). -/
theorem keepsPast_exec_decodeWire (x : State) (w : Word) : KeepsPast x (exec (decodeWire w)) := by
  intro s
  simp only [exec_decodeWire, State.dispatchDest, andThen_ite, andThen_withRead, andThen_next]
  rfl

/-- HDR's phase is the micro-op and then the variant (R243). -/
theorem keepsPast_hdrPhase (x : State) : KeepsPast x hdrPhase := by
  intro s
  have hseq (w : Word) := (keepsPast_exec_hdr x).seq (keepsPast_exec_decodeWire x w) s
  simp only [hdrPhase, hseq, andThen_withRead]
  rfl

/-- UPC moves on in any engine. -/
theorem keepsPast_nextUpc (x : State) (i : Instr) : KeepsPast x fun s => .next (nextUpc i s) := by
  intro s
  unfold nextUpc
  split <;> rfl

/-- Every word of any ROM keeps the past, whether it runs or is refused (R245). -/
theorem keepsPast_bodyPhase (x : State) : KeepsPast x bodyPhase := by
  intro s
  have hfetch : fetchMicroOp (s.withPast x) = fetchMicroOp s := rfl
  simp only [bodyPhase, hfetch, andThen_withRead]
  congr 1
  funext b
  cases hd : decode (.uop b) with
  | error e => rfl
  | ok i =>
    have hexec : KeepsPast x (exec i) := by
      rcases decode_uop_cases hd with rfl | rfl | hi
      · exact fun _ => rfl
      · exact keepsPast_exec_hdr x
      · exact keepsPast_exec_fieldOp x hi
    simp only [andThen_ite]
    split
    · exact hexec.seq (keepsPast_nextUpc x i) s
    · rfl

/-- Before FINISH a turn of a decoding does the same over another past, so long as that is one in which a
DECODE is running too. -/
theorem State.Decoding.engineStep_withPast {s x : State} (hs : s.Decoding) (hx : x.Decoding)
    (hphase : s.phase ≠ .finish) :
    engineStep (s.withPast x) = andThen (engineStep s) fun t => .next (t.withPast x) := by
  obtain ⟨hbusy, hop⟩ := hs
  obtain ⟨hbusy', hop'⟩ := hx
  have hstatus : (s.withPast x).status = x.status := rfl
  have hsame : (s.withPast x).phase = s.phase := rfl
  rw [engineStep, engineStep, hstatus, if_pos hbusy, if_pos hbusy', phaseStep, phaseStep, hsame]
  cases hp : s.phase with
  | idle => rfl
  | exec => simp [execPhase, hstatus, hop, hop']
  | gate => rfl
  | hdr => exact keepsPast_hdrPhase x s
  | body => exact keepsPast_bodyPhase x s
  | finish => exact absurd hp hphase

/-- Before FINISH a turn keeps its own past, STATUS with it: the decoding goes on. -/
theorem State.Decoding.of_engineStep {s t : State} (hs : s.Decoding) (hphase : s.phase ≠ .finish)
    (ht : engineStep s = .next t) : t.Decoding := by
  have hself : s.withPast s = s := rfl
  have hkeeps := hs.engineStep_withPast hs hphase
  rw [hself, ht, andThen_next] at hkeeps
  injection hkeeps with hkeeps
  rw [hkeeps]
  exact hs

/-- An idle engine stays as it is for any number of turns (R313). -/
theorem engineRun_of_idle {s : State} (h : s.status.busy = false) (n : Nat) :
    engineRun n s = .next s := by
  induction n with
  | zero => rfl
  | succ n ih => rw [engineRun_succ_of_step (engineStep_of_idle h), ih]

/-- The results a host reads of a DECODE (R240). -/
def State.decodeResults (s : State) :=
  (s.fields, s.fieldCount, s.summary, s.sumDestOff, s.block, s.viewData, s.cursor, s.dlenRd)

/-- A decoding that is over after `n` turns is over with the same results in an engine with another past:
each turn before FINISH is the same, and FINISH writes the two registers that were not. -/
theorem State.Decoding.results_of_withPast {x : State} (hx : x.Decoding) {n : Nat} {s u u' : State}
    (hs : s.Decoding) (hu : engineRun n s = .next u) (hidle : u.status.busy = false)
    (hu' : engineRun n (s.withPast x) = .next u') :
    u'.status.busy = false ∧ u'.decodeResults = u.decodeResults := by
  induction n generalizing s with
  | zero =>
    cases hu
    exact absurd hs.1 (by simp [hidle])
  | succ n ih =>
    by_cases hphase : s.phase = .finish
    · rw [engineRun_succ_of_step (engineStep_finish hs.1 hphase hs.2), engineRun_of_idle rfl] at hu
      rw [engineRun_succ_of_step (engineStep_finish (s := s.withPast x) hx.1 hphase hx.2),
        engineRun_of_idle rfl] at hu'
      cases hu
      cases hu'
      exact ⟨rfl, rfl⟩
    · obtain ⟨t, ht, hrest⟩ := andThen_eq_next hu
      have hturn : engineStep (s.withPast x) = .next (t.withPast x) := by
        rw [hs.engineStep_withPast hx hphase, ht, andThen_next]
      rw [engineRun_succ_of_step hturn] at hu'
      exact ih (hs.of_engineStep hphase ht) hrest hu'

/-- After Init two engines with the same BUF, BUF_LEN and ROM differ in their past alone (R241). -/
theorem State.startDecode_withPast {s s' : State} (detail : Bool) (hbuf : s.buf = s'.buf)
    (hlen : s.bufLen = s'.bufLen) (hrom : s.rom = s'.rom) :
    (s.startDecode detail).withPast (s'.startDecode detail) = s'.startDecode detail := by
  simp only [withPast, startDecode, initDecode, accept, hbuf, hlen, hrom]

/-- Settles O27: the second run is the first over another past. -/
theorem decodeForgetsThePast : Obligations.DecodeForgetsThePast := by
  intro s s' u u' n hidle hidle' hbuf hlen hrom hu hend hu'
  rw [exec_decode_of_idle hidle, andThen_next] at hu
  rw [exec_decode_of_idle hidle', andThen_next, ← State.startDecode_withPast true hbuf hlen hrom] at hu'
  have hstart (s : State) : (s.startDecode true).Decoding := ⟨rfl, rfl⟩
  obtain ⟨hend', hresults⟩ := (hstart s').results_of_withPast (hstart s) hu hend hu'
  simp only [State.decodeResults, Prod.mk.injEq] at hresults
  exact ⟨hend', hresults⟩

end Sys2Proof.Machine
end

section
/-! SUPPORT. How long a DECODE takes, and what it gives of a message below the header minimum
(43_message_decoder.md R242, R284, 70_reset_and_hazards.md R351). -/

namespace Sys2Proof.Wire

/-- No message takes more than 10 steps (R284, R351). -/
theorem decodeSteps_le (m : List Byte) : decodeSteps m ≤ 10 := by
  unfold decodeSteps
  split
  · decide
  · split <;> decide

end Sys2Proof.Wire

namespace Sys2Proof.Machine

open Sys2Proof.Wire

/-! ### The turns of a DECODE -/

/-- `a` turns and then `b`, whatever the first give. -/
theorem engineRun_add (a b : Nat) (s : State) :
    engineRun (a + b) s = andThen (engineRun a s) (engineRun b) := by
  induction a generalizing s with
  | zero => rw [Nat.zero_add, engineRun_zero, andThen_next]
  | succ a ih =>
    rw [Nat.succ_add, engineRun_succ, engineRun_succ, andThen_assoc]
    exact congrArg _ (funext ih)

/-- An engine that is busy after `n` turns was busy after each of them: an idle engine stays idle. -/
theorem busy_of_engineRun_le {k n : Nat} {s v : State} (hkn : k ≤ n)
    (hrun : engineRun n s = .next v) (hbusy : v.status.busy = true) :
    ∃ u, engineRun k s = .next u ∧ u.status.busy = true := by
  obtain ⟨j, rfl⟩ := Nat.exists_eq_add_of_le hkn
  rw [engineRun_add] at hrun
  obtain ⟨u, hu, hrest⟩ := andThen_eq_next hrun
  refine ⟨u, hu, ?_⟩
  by_contra hidle
  rw [Bool.not_eq_true] at hidle
  rw [engineRun_of_idle hidle] at hrest
  cases hrest
  exact absurd hbusy (by simp [hidle])

/-- From the header minimum on, the turn before the last leaves the engine in FINISH, busy (R351). -/
theorem State.Holds.engineRun_to_finish {s : State} {m : List Byte} (h : s.Holds m)
    (hrom : s.rom = microRom) (detail : Bool) (hlen : 12 ≤ m.length) :
    ∃ n v, decodeSteps m = n + 1 ∧ engineRun n (s.startDecode detail) = .next v
      ∧ v.status.busy = true := by
  have hinHdr : (s.inHdr detail).Holds m := h
  obtain ⟨t, ht, hhdr⟩ := hinHdr.engineStep_hdr hlen rfl rfl rfl rfl
  rw [State.working_start_inHdr] at hhdr
  have hinBody : ((s.inHdr detail).inBody m t).Holds m := h
  have hcount : (headerRecords m).length + (program (progSel t)).length < 16 :=
    Nat.lt_of_le_of_lt (Nat.add_le_add_left (length_program_le _) 3) (by decide)
  have hprogram := hinBody.engineRun_program hrom rfl rfl (program (progSel t)) [] (.header m) rfl
    hcount
  have hrun := (engineRun_succ_of_step (h.engineStep_gate detail hlen) _).trans
    ((engineRun_succ_of_step hhdr _).trans hprogram)
  exact ⟨_, _, decodeSteps_eq hlen ht, hrun, rfl⟩

/-- The turn before the last of any DECODE leaves the engine busy (R351). -/
theorem State.Holds.busy_before_last {s : State} {m : List Byte} (h : s.Holds m)
    (hrom : s.rom = microRom) (detail : Bool) :
    ∃ n v, decodeSteps m = n + 1 ∧ engineRun n (s.startDecode detail) = .next v
      ∧ v.status.busy = true := by
  by_cases hlen : m.length < 12
  · exact ⟨1, _, if_pos hlen,
      engineRun_succ_of_step (h.engineStep_gate_of_short detail hlen) 0, rfl⟩
  · exact h.engineRun_to_finish hrom detail (by omega)

/-- Settles O24: the last turn is FINISH, and before it the engine is busy. -/
theorem decodeTakesItsSteps : Obligations.DecodeTakesItsSteps := by
  intro s m k hinv hidle h hk
  obtain ⟨⟨-, -, hrom⟩, -⟩ := hinv
  obtain ⟨n, v, hsteps, hrun, hbusy⟩ := h.busy_before_last hrom true
  refine ⟨decodeSteps_le m, ?_⟩
  rw [exec_decode_of_idle hidle, andThen_next]
  rcases Nat.lt_or_eq_of_le hk with hlt | rfl
  · obtain ⟨u, hu, hubusy⟩ := busy_of_engineRun_le (k := k) (by omega) hrun hbusy
    exact ⟨u, hu, iff_of_true hubusy hlt⟩
  · obtain ⟨t, upc, hlast⟩ := h.engineRun_decode hrom true
    exact ⟨_, hlast, iff_of_false Bool.false_ne_true (Nat.lt_irrefl _)⟩

/-! ### A message below the header minimum -/

/-- Below the header minimum the gate leads to FINISH, whatever BUF holds (R242). -/
theorem engineStep_gate_of_lt {s : State} (detail : Bool)
    (hshort : s.bufLen.toNat < headerMinimum) :
    engineStep (s.startDecode detail) = .next { s.inHdr detail with phase := .finish } := by
  exact congrArg (fun p => Host.Outcome.next { s.inHdr detail with phase := p }) (if_pos hshort)

/-- So such a DECODE is over after two turns, and no byte is read (R242, R246). -/
theorem engineRun_two_of_lt {s : State} (detail : Bool)
    (hshort : s.bufLen.toNat < headerMinimum) :
    engineRun 2 (s.startDecode detail)
      = .next { s.inHdr detail with cursor := 0#32, dlenRd := 0#16 }.complete := by
  rw [engineRun_succ_of_step (engineStep_gate_of_lt detail hshort),
    engineRun_succ_of_step (engineStep_finish rfl rfl rfl)]
  rfl

/-- Settles O23: nothing follows Init but the gate and FINISH. -/
theorem shortDecodeReportsNothing : Obligations.ShortDecodeReportsNothing := by
  intro s hidle hshort
  have hrun : andThen (exec .decode s) (engineRun 2)
      = .next { s.inHdr true with cursor := 0#32, dlenRd := 0#16 }.complete := by
    rw [exec_decode_of_idle hidle, andThen_next, engineRun_two_of_lt true hshort]
  exact ⟨_, hrun, rfl, rfl, rfl, rfl, rfl, rfl, rfl, rfl, rfl, rfl, rfl⟩

end Sys2Proof.Machine
end

section
/-! SUPPORT. A Write Quadlet Request built from known values (30_encoding.md R127): its fields are those
values, and the statement about its DECODE (43_message_decoder.md R286). -/

namespace Sys2Proof

/-- The operands of a header word and its tcode, as one number (R111). -/
theorem Header.toNat_toWord (h : Header) (t : Nibble) :
    (h.toWord t).toNat = 2 ^ 31 * h.boot.toNat + 2 ^ 16 * h.id.toNat + 2 ^ 10 * h.label.toNat
      + 2 ^ 8 * h.rsvd.toNat + 2 ^ 4 * t.toNat + h.prio.toNat := by
  simp only [Header.toWord, Machine.toNat_append_eq_add]
  omega

end Sys2Proof

namespace Sys2Proof.Wire

open Sys2Proof.Machine

/-! ### The fields of the message -/

/-- The four bytes of a word are read back as its number (R87). -/
theorem foldl_bigEndian32 (v : Word) :
    (bigEndian32 v).foldl (fun v b => v * 256 + b.toNat) 0 = v.toNat := by
  have hlt := v.isLt
  simp only [bigEndian32, List.foldl_cons, List.foldl_nil, BitVec.extractLsb'_toNat,
    Nat.shiftRight_eq_div_pow]
  omega

/-- The two bytes of a half are read back as its number (R87). -/
theorem foldl_bigEndian16 (v : Half) :
    (bigEndian16 v).foldl (fun v b => v * 256 + b.toNat) 0 = v.toNat := by
  have hlt := v.isLt
  simp only [bigEndian16, List.foldl_cons, List.foldl_nil, BitVec.extractLsb'_toNat,
    Nat.shiftRight_eq_div_pow]
  omega

/-- The header word of a message is its destination_id, byte 2 and byte 3 (R111). -/
theorem field_header {m : List Byte} (h : 4 ≤ m.length) :
    field m 0 4 = field m 0 2 * 65536 + field m 2 1 * 256 + field m 3 1 := by
  have hword : field m 0 4 = field m 0 2 * 65536 + field m 2 2 := field_add (a := 2) (b := 2) h
  have hlow : field m 2 2 = field m 2 1 * 256 + field m 3 1 := field_add (a := 1) (b := 1) h
  rw [hword, hlow, Nat.add_assoc]

/-- The header fields of the request, with boot flag 0 (R112 to R114, R127). -/
theorem field_header_writeQuadletRequest (d : BitVec 15) (t : BitVec 6) (c : Half) (a q : Word) :
    field (writeQuadletRequest 0#1 d t c a q) 0 2 = d.toNat
      ∧ field (writeQuadletRequest 0#1 d t c a q) 2 1 = 4 * t.toNat
      ∧ field (writeQuadletRequest 0#1 d t c a q) 3 1 = 0 := by
  have hword : field (writeQuadletRequest 0#1 d t c a q) 0 4
      = (Header.toWord ⟨0#1, d, t, 0#2, 0#4⟩ 0#4).toNat := foldl_bigEndian32 _
  have hlength : 4 ≤ (writeQuadletRequest 0#1 d t c a q).length := Nat.le_add_left 4 12
  rw [Header.toNat_toWord, field_header hlength] at hword
  have hid := d.isLt
  have hlabel := t.isLt
  have h2 := field_lt (writeQuadletRequest 0#1 d t c a q) 2 1
  have h3 := field_lt (writeQuadletRequest 0#1 d t c a q) 3 1
  simp only [BitVec.toNat_ofNat] at hword
  omega

/-- The request has tcode 0 (R127). -/
theorem tcode_writeQuadletRequest (d : BitVec 15) (t : BitVec 6) (c : Half) (a q : Word) :
    tcode (writeQuadletRequest 0#1 d t c a q) = 0 := by
  obtain ⟨-, -, h3⟩ := field_header_writeQuadletRequest d t c a q
  rw [tcode, h3]

/-- The request's records are the values it was built from (R251, R286). -/
theorem records_writeQuadletRequest (d : BitVec 15) (t : BitVec 6) (c : Half) (a q : Word) :
    records (writeQuadletRequest 0#1 d t c a q)
      = [ ⟨1#4, 0#32, 2#32, d.setWidth 32⟩, ⟨3#4, 2#32, 1#32, t.setWidth 32⟩,
          ⟨4#4, 3#32, 1#32, 0#32⟩, ⟨5#4, 4#32, 2#32, c.setWidth 32⟩,
          ⟨6#4, 8#32, 4#32, a⟩, ⟨7#4, 12#32, 4#32, q⟩ ] := by
  have htcode := tcode_writeQuadletRequest d t c a q
  obtain ⟨hid, hlabel, -⟩ := field_header_writeQuadletRequest d t c a q
  have hlength : (writeQuadletRequest 0#1 d t c a q).length = 16 := rfl
  have hsource : field (writeQuadletRequest 0#1 d t c a q) 4 2 = c.toNat := foldl_bigEndian16 c
  have haddress : field (writeQuadletRequest 0#1 d t c a q) 8 4 = a.toNat := foldl_bigEndian32 a
  have hquadlet : field (writeQuadletRequest 0#1 d t c a q) 12 4 = q.toNat := foldl_bigEndian32 q
  generalize writeQuadletRequest 0#1 d t c a q = m at *
  have hnoBlock : wholeBlock m = [] := by simp [wholeBlock, hasBlock, htcode]
  have hflag : ¬ 0x8000 ≤ d.toNat := Nat.not_le.2 d.isLt
  have hmod : d.toNat % 0x8000 = d.toNat := Nat.mod_eq_of_lt d.isLt
  rw [records_eq (by omega), hnoBlock, htcode]
  simp [headerRecords, layout, wholeField, reported, record, hlength, htcode, hid, hlabel, hsource,
    haddress, hquadlet, hflag, hmod]

end Sys2Proof.Wire

namespace Sys2Proof.Machine

/-- Settles O25: the layout gives the request the values it was built from, in 7 steps. -/
theorem writeQuadletRoundTrip : Obligations.WriteQuadletRoundTrip := by
  intro s d t c a q hinv hidle h
  have hsteps : Wire.decodeSteps (writeQuadletRequest 0#1 d t c a q) = 7 := by
    rw [Wire.decodeSteps, Wire.tcode_writeQuadletRequest]
    rfl
  obtain ⟨u, hrun, hrecords, -, -, -, -, -, -, -, -, hstatus, -⟩ :=
    decodeReportsMessage s _ hinv hidle h
  rw [hsteps] at hrun
  exact ⟨u, hrun, congrArg Status.busy hstatus,
    hrecords.trans (Wire.records_writeQuadletRequest d t c a q)⟩

end Sys2Proof.Machine
end

section
/-! SUPPORT. What one turn in BODY and in HDR runs, and where each wire variant leads (43_message_decoder.md
R243 to R245, R251 to R258). -/

namespace Sys2Proof.Machine

/-! ### A turn runs the decoded instruction -/

/-- The step of a machine whose next input is the engine's turn (R81, R95). -/
theorem step_engine {s : State} {rest : List Event} (h : s.agenda = .engine :: rest) :
    step s = engineStep { s with agenda := rest } := by
  rw [step, h]
  rfl

/-- A turn in BODY runs the micro-op the fetched word decodes to, unless it is reserved (R245). -/
theorem engineStep_body {s : State} {b : Byte} {i : Instr} (hbusy : s.status.busy = true)
    (hbody : s.phase = .body) (hb : fetchMicroOp s = .ok b) (hd : decode (.uop b) = .ok i)
    (hwf : i.wellFormed = true) :
    engineStep s = andThen (exec i s) fun t => .next (nextUpc i t) := by
  rw [engineStep, if_pos hbusy, phaseStep, hbody]
  simp only [bodyPhase, hb, withRead_ok, hd, if_pos hwf]

/-- A turn in HDR runs the HDR micro-op and then the variant of the header word (R243, R244). -/
theorem engineStep_hdr {s : State} {w : Word} (hbusy : s.status.busy = true)
    (hhdr : s.phase = .hdr) (hw : s.memRead4 0 = .ok w) :
    engineStep s = andThen (exec .hdr s) fun t => exec (decodeWire w) t := by
  rw [engineStep, if_pos hbusy, phaseStep, hhdr]
  simp only [hdrPhase, fetchHeader, hw, withRead_ok]

/-- Settles O7: the step is the engine's turn in BODY. -/
theorem bodyStepRunsDecoded : Obligations.BodyStepRunsDecoded := by
  intro s rest p b i hagenda hbusy hbody hp hb hd hwf
  have hfetch : fetchMicroOp { s with agenda := rest } = .ok b := fetchMicroOp_eq_ok.2 ⟨p, hp, hb⟩
  exact (step_engine hagenda).trans (engineStep_body hbusy hbody hfetch hd hwf)

/-- Settles O8: the step is the engine's turn in HDR. -/
theorem headerStepRunsDecoded : Obligations.HeaderStepRunsDecoded := by
  intro s rest w i hagenda hbusy hhdr hw hd
  cases hd
  exact (step_engine hagenda).trans
    (engineStep_hdr (s := { s with agenda := rest }) hbusy hhdr hw)

/-! ### The variants -/

/-- The tcodes with a destination are not reserved and select the program of their own number (R243,
R244). -/
theorem dispatch_of_bearsDest :
    ∀ t : Nibble, bearsDest t = true → tcodeReserved t = false ∧ progSel t = t.setWidth 3 := by
  decide

/-- With the address in the message, the dispatch of a variant with a destination takes it (R243, R262). -/
theorem State.dispatchDest_of_read {s : State} {t : Nibble} {a : Word} (ht : bearsDest t = true)
    (ha : s.memRead4 8 = .ok a) :
    s.dispatchDest t = .next { s with
      summary := { s.summary with
        hasType := true, tcodeRsvd := false, hasDest := true, tcode := t }
      sumDestOff := a
      prog := t.setWidth 3, upc := 0#3, phase := .body } := by
  obtain ⟨hrsvd, hprog⟩ := dispatch_of_bearsDest t ht
  rw [dispatchDest, ha, withRead_ok, dispatch, Summary.ofTcode, hrsvd, hprog, ht, Bool.or_true]

/-- The dispatch of a variant without a destination keeps what HAS_DEST was (R243, R262). -/
theorem State.dispatch_of_not_bearsDest (s : State) {t : Nibble} (ht : bearsDest t = false) :
    s.dispatch t = { s with
      summary := { s.summary with hasType := true, tcodeRsvd := tcodeReserved t, tcode := t }
      prog := progSel t, upc := 0#3, phase := .body } := by
  rw [dispatch, Summary.ofTcode, ht, Bool.or_false]

/-- The reserved tcodes 8 to 15 all lead to the unknown sink (R258). -/
theorem dispatch_of_top_bit :
    ∀ low : BitVec 3, bearsDest (1#1 ++ low) = false ∧ tcodeReserved (1#1 ++ low) = true
      ∧ progSel (1#1 ++ low) = 3#3 := by decide

/-- Settles O40: each of the four variants is the dispatch of its tcode, which has a destination. -/
theorem destVariantsDispatch : Obligations.DestVariantsDispatch := by
  rintro s h a i t (⟨rfl, rfl⟩ | ⟨rfl, rfl⟩ | ⟨rfl, rfl⟩ | ⟨rfl, rfl⟩) ha
  all_goals exact State.dispatchDest_of_read rfl ha

/-- Settles O41: each of the others is the dispatch of its tcode, which has none. -/
theorem otherVariantsDispatch : Obligations.OtherVariantsDispatch := by
  rintro s h low i t p rsvd (⟨rfl, rfl, rfl, rfl⟩ | ⟨rfl, rfl, rfl, rfl⟩ | ⟨rfl, rfl, rfl, rfl⟩
    | ⟨rfl, rfl, rfl, rfl⟩ | ⟨rfl, ht, rfl, rfl⟩)
  case inr.inr.inr.inr =>
    obtain ⟨hdest, hrsvd, hprog⟩ := dispatch_of_top_bit low
    obtain rfl : t = 1#1 ++ low := by
      rw [← BitVec.toNat_inj, ht, toNat_append_eq_add]
      rfl
    have hexec : exec (.rsvd8to15 h low) s = .next (s.dispatch (1#1 ++ low)) := rfl
    rw [hexec, State.dispatch_of_not_bearsDest s hdest, hrsvd, hprog]
  all_goals exact congrArg Host.Outcome.next (State.dispatch_of_not_bearsDest s rfl)

end Sys2Proof.Machine
end

section
/-! SUPPORT. The views of the data block: the index check as numbers, what a VIEW_SEL write does with each
kind of element, and the statements about it (43_message_decoder.md R270 to R272). -/

namespace Sys2Proof.Machine

/-! ### VIEW_SEL as a number -/

/-- MODE is the top bit of VIEW_SEL (R55). -/
theorem viewMode_iff {v : Word} : viewMode v = true ↔ 2 ^ 31 ≤ v.toNat := by
  have hlt := v.isLt
  rw [viewMode, getLsbD_eq_decide_div, decide_eq_true_iff]
  omega

/-- Below it VIEW_SEL selects the word view (R55). -/
theorem viewMode_eq_false {v : Word} (hmode : v.toNat < 2 ^ 31) : viewMode v = false := by
  rw [← Bool.not_eq_true, viewMode_iff]
  exact Nat.not_le.2 hmode

/-- INDEX is the low half of VIEW_SEL (R55). -/
theorem toNat_viewIndex (v : Word) : (viewIndex v).toNat = v.toNat % 2 ^ 16 := by
  rw [viewIndex, BitVec.extractLsb'_toNat, Nat.shiftRight_zero]

/-- The elements of the word view are the block's words (R272). -/
theorem Block.hasElement_of_word {b : Block} {v : Word} (hmode : v.toNat < 2 ^ 31) :
    b.hasElement v = true ↔ b.valid = true ∧ v.toNat % 2 ^ 16 < b.words.toNat := by
  simp [hasElement, viewMode_eq_false hmode, BitVec.lt_def, toNat_viewIndex]

/-- The elements of the byte view are the block's bytes (R272). -/
theorem Block.hasElement_of_byte {b : Block} {v : Word} (hmode : 2 ^ 31 ≤ v.toNat) :
    b.hasElement v = true ↔ b.valid = true ∧ v.toNat % 2 ^ 16 < b.bytes.toNat := by
  simp [hasElement, viewMode_iff.2 hmode, BitVec.lt_def, toNat_viewIndex]

/-! ### The VIEW_SEL write -/

/-- A VIEW_SEL write that selects a word of the block latches it, or faults with the read (R272, log 6). -/
theorem writeViewSel_of_word {s : State} {v : Word} (hidle : s.status.busy = false)
    (hmode : v.toNat < 2 ^ 31) (h : s.block.hasElement v = true) :
    writeViewSel s v
      = withRead (s.memRead4 (s.block.start.toNat + 4 * (v.toNat % 2 ^ 16))) fun w =>
        .next { s with viewSel := v &&& 0x8000FFFF#32, viewData := w } := by
  simp [writeViewSel, State.whenIdle, hidle, h, viewMode_eq_false hmode, toNat_viewIndex]

/-- One that selects a byte latches it, zero-extended (R272, log 6). -/
theorem writeViewSel_of_byte {s : State} {v : Word} (hidle : s.status.busy = false)
    (hmode : 2 ^ 31 ≤ v.toNat) (h : s.block.hasElement v = true) :
    writeViewSel s v
      = withRead (s.memRead1 (s.block.start.toNat + v.toNat % 2 ^ 16)) fun b =>
        .next { s with viewSel := v &&& 0x8000FFFF#32, viewData := b.setWidth 32 } := by
  simp [writeViewSel, State.whenIdle, hidle, h, viewMode_iff.2 hmode, toNat_viewIndex]

/-- One that selects no element reads nothing and raises E_VIEW (R272, R297). -/
theorem writeViewSel_of_no_element {s : State} {v : Word} (hidle : s.status.busy = false)
    (h : s.block.hasElement v = false) :
    writeViewSel s v
      = .next ({ s with viewSel := v &&& 0x8000FFFF#32, viewData := 0#32 }.raise .view) := by
  simp [writeViewSel, State.whenIdle, hidle, h]

/-- Settles O49: the selected element is one of the block's, and it can be read. -/
theorem viewLatchesElement : Obligations.ViewLatchesElement := by
  rintro s v w b k hidle hvalid rfl
  refine ⟨fun hmode hk hread => ?_, fun hmode hk hread => ?_⟩
  · refine (hostAccess_write_reg s .viewSel v).trans ?_
    rw [writeMapped, writeViewSel_of_word hidle hmode
      ((Block.hasElement_of_word hmode).2 ⟨hvalid, hk⟩), hread]
    rfl
  · refine (hostAccess_write_reg s .viewSel v).trans ?_
    rw [writeMapped, writeViewSel_of_byte hidle hmode
      ((Block.hasElement_of_byte hmode).2 ⟨hvalid, hk⟩), hread]
    rfl

/-! ### Views of a written message -/

/-- A message the host has written is in BUF, whatever its bytes are (R333, R334). -/
theorem State.Loaded.exists_holds {s : State} (h : s.Loaded) : ∃ m, s.Holds m := by
  refine ⟨(List.range s.bufLen.toNat).map fun k => (s.buf.read? k).getD 0#8, by simp, ?_⟩
  intro k hk
  rw [List.length_map, List.length_range] at hk
  obtain ⟨b, hb⟩ := Option.isSome_iff_exists.1 (h k hk)
  simp [hb, hk]

/-- Under the invariant an idle VIEW_SEL write reads inside the message, if it reads at all (R54, R86,
R272). -/
theorem writeViewSel_next_of_idle {s : State} (v : Word) (hblock : s.BlockInv) (hload : s.Loaded)
    (hidle : s.status.busy = false) : ∃ t, writeViewSel s v = .next t := by
  obtain ⟨m, hlen, hread⟩ := hload.exists_holds
  have hholds : s.Holds m := ⟨hlen, hread⟩
  obtain ⟨hwords, hbytes, hinside⟩ := hblock
  cases helem : s.block.hasElement v with
  | false => exact ⟨_, writeViewSel_of_no_element hidle helem⟩
  | true =>
    by_cases hmode : v.toNat < 2 ^ 31
    · obtain ⟨hvalid, hk⟩ := (Block.hasElement_of_word hmode).1 helem
      obtain ⟨hstart, hend⟩ := hinside hvalid
      have h16 : s.block.start.toNat = 16 := congrArg BitVec.toNat hstart
      obtain ⟨w, hw, -⟩ := hholds.memRead4 (k := s.block.start.toNat + 4 * (v.toNat % 2 ^ 16))
        (by omega)
      exact ⟨_, by rw [writeViewSel_of_word hidle hmode helem, hw, withRead_ok]⟩
    · obtain ⟨hvalid, hk⟩ := (Block.hasElement_of_byte (Nat.not_lt.1 hmode)).1 helem
      obtain ⟨hstart, hend⟩ := hinside hvalid
      have h16 : s.block.start.toNat = 16 := congrArg BitVec.toNat hstart
      rw [hbytes] at hk
      obtain ⟨b, hb, -⟩ := hholds.memRead1 (k := s.block.start.toNat + v.toNat % 2 ^ 16) (by omega)
      exact ⟨_, by rw [writeViewSel_of_byte hidle (Nat.not_lt.1 hmode) helem, hb, withRead_ok]⟩

/-- Settles O51: a busy engine drops the write, an idle one reads inside the message. -/
theorem viewNeverStops : Obligations.ViewNeverStops := by
  intro s v hinv hload
  obtain ⟨-, -, -, -, -, -, hblock, -⟩ := hinv
  have hwrite : ∃ t, writeViewSel s v = .next t := by
    cases hbusy : s.status.busy with
    | true => exact ⟨s.raise .busy, if_pos hbusy⟩
    | false => exact writeViewSel_next_of_idle v hblock hload hbusy
  obtain ⟨t, ht⟩ := hwrite
  refine ⟨t.respond .ok, (hostAccess_write_reg s .viewSel v).trans ?_⟩
  rw [writeMapped, ht, andThen_next]

end Sys2Proof.Machine
end

section
/-! SUPPORT. Errors: what an action may do to ERR and ERRCODE, one statement per action of the engine and of
the host, and the statements about it (60_exceptions.md R290 to R301). -/

namespace Sys2Proof.Machine

/-! ### ERR and ERRCODE -/

/-- What the block remembers of an error: ERR and its code (R43, R293). -/
def State.recorded (s : State) : Bool × Nibble := (s.status.err, s.status.errCode)

/-- Two states remember the same error exactly when they agree on ERR and on ERRCODE. -/
theorem State.recorded_eq_iff {s t : State} :
    t.recorded = s.recorded ↔ t.status.err = s.status.err ∧ t.status.errCode = s.status.errCode := by
  simp only [recorded, Prod.mk.injEq]

/-- The first error sets ERR and its code (R293). -/
theorem State.raise_of_no_error {s : State} (h : s.status.err = false) (e : ErrorKind) :
    s.raise e = { s with status := { s.status with err := true, errCode := e.code } } := by
  simp [raise, h]

/-- A later error changes nothing (R293). -/
theorem State.raise_of_error {s : State} (h : s.status.err = true) (e : ErrorKind) :
    s.raise e = s := by
  have hstatus : { s.status with err := true } = s.status := by rw [← h]
  rw [raise, if_pos h, hstatus]

/-- The error remembered after an error that is not the first is the one before it. -/
theorem State.recorded_raise {s : State} (h : s.status.err = true) (e : ErrorKind) :
    (s.raise e).recorded = s.recorded := by
  rw [raise_of_error h]

/-! ### The engine's turn -/

/-- A micro-op of a program records no error (R214). -/
theorem FieldStep.recorded_eq {i : Instr} {s t : State} (h : FieldStep i s t) :
    t.recorded = s.recorded := by
  rw [h.frame]
  rfl

/-- HDR records no error (R214). -/
theorem recorded_of_exec_hdr {s t : State} (h : exec .hdr s = .next t) :
    t.recorded = s.recorded := by
  obtain ⟨d, b2, b3, -, -, -, rfl⟩ := exec_hdr_eq_next h
  rfl

/-- BODY records no error, whatever the ROM holds (R214). -/
theorem recorded_of_bodyPhase {s t : State} (h : bodyPhase s = .next t) :
    t.recorded = s.recorded := by
  obtain ⟨b, i, u, -, hd, hwf, hu, rfl⟩ := bodyPhase_eq_next h
  have hupc : (nextUpc i u).recorded = u.recorded := by
    unfold nextUpc
    split <;> rfl
  rw [hupc]
  rcases decode_uop_cases hd with rfl | rfl | hi
  · cases hu
    rfl
  · exact recorded_of_exec_hdr hu
  · exact (fieldStep_of_exec hi hwf hu).recorded_eq

/-- HDR's phase records no error (R290). -/
theorem recorded_of_hdrPhase {s t : State} (h : hdrPhase s = .next t) :
    t.recorded = s.recorded := by
  obtain ⟨w, u, -, hu, hvariant⟩ := hdrPhase_eq_next h
  obtain ⟨a, rfl, -⟩ := exec_decodeWire_eq_next hvariant
  exact (recorded_of_exec_hdr hu : u.recorded = s.recorded)

/-- The engine is in the EXEC phase of an MSGLEN with fewer than 4 bytes at ORC_OFF (R181, R295). -/
abbrev State.OracleShort (s : State) : Prop :=
  s.phase = .exec ∧ s.status.lastOp = 2#4 ∧ s.bufLen.toNat < s.orcOff.toNat + 4

/-- MSGLEN records E_ORC_SHORT if it is short of bytes, and nothing otherwise (R181, R295). -/
theorem recorded_of_msglenPhase {s t : State} (h : msglenPhase s = .next t) :
    t.recorded = s.recorded
      ∨ s.bufLen.toNat < s.orcOff.toNat + 4 ∧ t.recorded = (s.raise .orcShort).recorded := by
  by_cases hshort : s.bufLen.toNat < s.orcOff.toNat + 4
  · cases (msglenPhase_of_short hshort).symm.trans h
    exact .inr ⟨hshort, rfl⟩
  · rw [msglenPhase_of_available (Nat.not_lt.1 hshort)] at h
    obtain ⟨n, -, hn⟩ := withRead_next h
    cases hn
    exact .inl rfl

/-- EXEC records an error in a short MSGLEN only. -/
theorem recorded_of_execPhase {s t : State} (hphase : s.phase = .exec) (h : execPhase s = .next t) :
    t.recorded = s.recorded ∨ s.OracleShort ∧ t.recorded = (s.raise .orcShort).recorded := by
  unfold execPhase at h
  split at h
  · obtain ⟨b, rfl⟩ := matchPhase_eq_next h
    exact .inl rfl
  · next hop =>
    refine (recorded_of_msglenPhase h).imp_right fun ⟨hshort, hrecorded⟩ => ?_
    exact ⟨⟨hphase, BitVec.eq_of_toNat_eq hop, hshort⟩, hrecorded⟩
  · cases h

/-- The one error an engine's turn can record is E_ORC_SHORT, in a short MSGLEN (R290, R295). -/
theorem recorded_of_engineStep {s t : State} (h : engineStep s = .next t) :
    t.recorded = s.recorded ∨ s.OracleShort ∧ t.recorded = (s.raise .orcShort).recorded := by
  rcases engineStep_eq_next h with ⟨-, rfl⟩ | ⟨-, h⟩
  · exact .inl rfl
  · unfold phaseStep at h
    split at h
    · cases h
      exact .inl rfl
    · next hphase => exact recorded_of_execPhase hphase h
    · cases h
      exact .inl rfl
    · exact .inl (recorded_of_hdrPhase h)
    · exact .inl (recorded_of_bodyPhase h)
    · cases h
      left
      split <;> rfl

end Sys2Proof.Machine
end

section
/-! SUPPORT. Progress: over a message the host has written, every phase of the engine goes on to a next state,
and the statement about it (60_exceptions.md R290, 70_reset_and_hazards.md R333). -/

namespace Sys2Proof.Machine

/-! ### The micro-ops and the variants go on -/

/-- A guarded read goes on when the guard puts it inside the message (R201). -/
theorem guarded_next {α : Type} {guard : Bool} {r : Except Fault α} {f : α → State} {u : State}
    (hr : guard = true → ∃ v, r = .ok v) :
    ∃ t, (if guard then withRead r fun v => .next (f v) else .next u) = .next t := by
  cases guard with
  | false => exact ⟨u, rfl⟩
  | true =>
    obtain ⟨v, rfl⟩ := hr rfl
    exact ⟨f v, rfl⟩

/-- The reads of a message BUF holds, under the guard of their field (R201). -/
theorem State.Holds.reads_of_fits {s : State} {m : List Byte} (h : s.Holds m) (cur : Word) :
    (fits s.bufLen cur 1 = true → ∃ b, s.memRead1 cur.toNat = .ok b)
      ∧ (fits s.bufLen cur 2 = true → ∃ v, s.memRead2 cur.toNat = .ok v)
      ∧ (fits s.bufLen cur 4 = true → ∃ w, s.memRead4 cur.toNat = .ok w) := by
  simp only [h.fits_eq, decide_eq_true_eq]
  exact ⟨fun hk => (h.memRead1 hk).imp fun _ => And.left,
    fun hk => (h.memRead2 hk).imp fun _ => And.left,
    fun hk => (h.memRead4 hk).imp fun _ => And.left⟩

/-- A micro-op of a program goes on over a message BUF holds (R204 to R210). -/
theorem State.Holds.exec_fieldOp_next {s : State} {m : List Byte} (h : s.Holds m) {i : Instr}
    (hi : i.isFieldOp = true) : ∃ t, exec i s = .next t := by
  obtain ⟨hread1, hread2, hread4⟩ := h.reads_of_fits s.cur
  cases i with
  | u16 kind => exact guarded_next hread2
  | u32 kind => exact guarded_next hread4
  | rcode => exact guarded_next hread1
  | skip n => exact ⟨_, rfl⟩
  | doff =>
    obtain ⟨-, -, haddress⟩ := h.reads_of_fits (s.cur + 2#32)
    exact guarded_next haddress
  | dlen => exact guarded_next hread2
  | block => exact ⟨_, (apply_ite Host.Outcome.next _ _ _).symm⟩
  | _ => cases hi

/-- HDR goes on over a message of 4 bytes or more, and leaves the message (R203). -/
theorem State.Holds.exec_hdr_next {s : State} {m : List Byte} (h : s.Holds m)
    (hlen : 4 ≤ m.length) : ∃ t, exec .hdr s = .next t ∧ t.Holds m := by
  obtain ⟨d, hd, -⟩ := h.memRead2 (k := 0) (by omega)
  obtain ⟨b2, hb2, -⟩ := h.memRead1 (k := 2) (by omega)
  obtain ⟨b3, hb3, -⟩ := h.memRead1 (k := 3) (by omega)
  exact ⟨_, exec_hdr_of_reads hd hb2 hb3, h⟩

/-- A variant goes on over a message with the header minimum (R242, R243). -/
theorem State.Holds.exec_decodeWire_next {s : State} {m : List Byte} (h : s.Holds m)
    (hlen : 12 ≤ m.length) (w : Word) : ∃ t, exec (decodeWire w) s = .next t := by
  rw [exec_decodeWire]
  split
  · obtain ⟨a, ha, -⟩ := h.memRead4 (k := 8) hlen
    exact ⟨_, by rw [dispatchDest, ha, withRead_ok]⟩
  · exact ⟨_, rfl⟩

/-- Where the tables give a cursor the ROM holds a micro-op that is not reserved (R38, R137, R250). -/
theorem microRom_of_cursorAt (p u : BitVec 3) :
    (cursorAt p u).isSome = true →
      ((microRom[p.toNat]?.bind fun l => l[u.toNat]?).any fun b =>
        (decode (.uop b)).toOption.any Instr.wellFormed) = true := by
  decide +revert

/-- So BODY fetches a micro-op it can run, at a place the invariant allows. -/
theorem fetchMicroOp_of_cursorAt {s : State} {c : Nat} (hrom : s.rom = microRom)
    (hcursor : cursorAt s.prog s.upc = some c) :
    ∃ b i, fetchMicroOp s = .ok b ∧ decode (.uop b) = .ok i ∧ i.wellFormed = true := by
  have hcell := microRom_of_cursorAt s.prog s.upc (by rw [hcursor, Option.isSome_some])
  obtain ⟨b, hb, hdecodes⟩ := (Option.any_eq_true _ _).1 hcell
  obtain ⟨l, hl, hu⟩ := Option.bind_eq_some_iff.1 hb
  obtain ⟨i, hi, hwf⟩ := (Option.any_eq_true _ _).1 hdecodes
  cases hd : decode (.uop b) with
  | error e =>
    rw [hd] at hi
    cases hi
  | ok j =>
    rw [hd] at hi
    cases hi
    exact ⟨b, i, fetchMicroOp_eq_ok.2 ⟨l, hrom ▸ hl, hu⟩, hd, hwf⟩

/-! ### The phases go on -/

/-- The length MSGLEN computes can be read with 4 bytes at ORC_OFF (R181 to R185). -/
theorem State.Holds.oracleLength_ok {s : State} {m : List Byte} (h : s.Holds m)
    (havail : s.orcOff.toNat + 4 ≤ s.bufLen.toNat) : ∃ n, s.oracleLength = .ok n := by
  have hlen := h.1
  obtain ⟨b, hb, -⟩ := h.memRead1 (k := s.orcOff.toNat + 3) (by omega)
  by_cases hreads : s.ReadsDataLength (tcodeOf b)
  · have ⟨_, hinside⟩ := hreads
    obtain ⟨n, hn, -⟩ := h.memRead2 (k := s.orcOff.toNat + 12) (by omega)
    exact ⟨_, oracleLength_of_block hb hreads hn⟩
  · exact ⟨_, oracleLength_of_base hb hreads⟩

/-- MATCH goes on (R161, R162). -/
theorem State.Holds.matchPhase_next {s : State} {m : List Byte} (h : s.Holds m) :
    ∃ t, matchPhase s = .next t := by
  have hlen := h.1
  by_cases hshort : s.bufLen.toNat < 4
  · exact ⟨_, matchPhase_of_short hshort⟩
  · obtain ⟨d, hd, -⟩ := h.memRead2 (k := 0) (by omega)
    obtain ⟨b2, hb2, -⟩ := h.memRead1 (k := 2) (by omega)
    obtain ⟨b3, hb3, -⟩ := h.memRead1 (k := 3) (by omega)
    exact ⟨_, matchPhase_of_reads (Nat.not_lt.1 hshort) hd hb2 hb3⟩

/-- MSGLEN goes on, with a length or with E_ORC_SHORT (R181, R295). -/
theorem State.Holds.msglenPhase_next {s : State} {m : List Byte} (h : s.Holds m) :
    ∃ t, msglenPhase s = .next t := by
  by_cases hshort : s.bufLen.toNat < s.orcOff.toNat + 4
  · exact ⟨_, msglenPhase_of_short hshort⟩
  · obtain ⟨n, hn⟩ := h.oracleLength_ok (Nat.not_lt.1 hshort)
    exact ⟨_, by rw [msglenPhase_of_available (Nat.not_lt.1 hshort), hn, withRead_ok]⟩

/-- EXEC goes on with either of its commands (R36). -/
theorem State.Holds.execPhase_next {s : State} {m : List Byte} (h : s.Holds m)
    (hop : s.status.lastOp = 1#4 ∨ s.status.lastOp = 2#4) : ∃ t, execPhase s = .next t := by
  unfold execPhase
  rcases hop with hop | hop <;> rw [hop]
  · exact h.matchPhase_next
  · exact h.msglenPhase_next

/-- HDR's phase goes on with the header minimum (R242, R243). -/
theorem State.Holds.hdrPhase_next {s : State} {m : List Byte} (h : s.Holds m)
    (hlen : 12 ≤ m.length) : ∃ t, hdrPhase s = .next t := by
  obtain ⟨w, hw, -⟩ := h.memRead4 (k := 0) (by omega)
  obtain ⟨u, hu, hholds⟩ := h.exec_hdr_next (by omega)
  obtain ⟨t, ht⟩ := hholds.exec_decodeWire_next hlen w
  exact ⟨t, by rw [hdrPhase, fetchHeader, hw, withRead_ok, hu, andThen_next, ht]⟩

/-- BODY goes on at a place of a program (R38, R245). -/
theorem State.Holds.bodyPhase_next {s : State} {m : List Byte} (h : s.Holds m)
    (hrom : s.rom = microRom) {c : Nat} (hcursor : cursorAt s.prog s.upc = some c) :
    ∃ t, bodyPhase s = .next t := by
  obtain ⟨b, i, hb, hd, hwf⟩ := fetchMicroOp_of_cursorAt hrom hcursor
  have hrun : ∃ u, exec i s = .next u := by
    by_cases hi : i = .endProg
    · subst hi
      exact ⟨_, rfl⟩
    · obtain ⟨hfield, -⟩ := placeAgrees_of_fetch hrom hb hd hi
      exact h.exec_fieldOp_next hfield
  obtain ⟨u, hu⟩ := hrun
  refine ⟨nextUpc i u, ?_⟩
  simp only [bodyPhase, hb, withRead_ok, hd, if_pos hwf, hu, andThen_next]

/-- Under the invariant every phase goes on over a message the host has written (R290, R333). -/
theorem phaseStep_next {s : State} (hinv : s.Inv) (hload : s.Loaded) :
    ∃ t, phaseStep s = .next t := by
  obtain ⟨⟨-, -, hrom⟩, -, -, ⟨hexec, -, hmin, hbody, -⟩, -⟩ := hinv
  obtain ⟨m, hlen, hread⟩ := hload.exists_holds
  have hholds : s.Holds m := ⟨hlen, hread⟩
  unfold phaseStep
  cases hphase : s.phase with
  | idle | gate | finish => exact ⟨_, rfl⟩
  | exec => exact hholds.execPhase_next (hexec hphase)
  | hdr => exact hholds.hdrPhase_next (hlen ▸ hmin (.inl hphase))
  | body =>
    obtain ⟨-, -, -, -, -, hcursor, -⟩ := hbody hphase
    exact hholds.bodyPhase_next hrom hcursor

/-- Settles O28: every phase goes on, and only a short MSGLEN records an error. -/
theorem engineNeverStops : Obligations.EngineNeverStops := by
  intro s hinv hload
  have hturn : ∃ t, engineStep s = .next t := by
    unfold engineStep
    split
    · exact phaseStep_next hinv hload
    · exact ⟨s, rfl⟩
  obtain ⟨t, ht⟩ := hturn
  refine ⟨t, ht, fun hchange => ?_⟩
  have hnew : t.recorded ≠ s.recorded := fun hsame => by
    obtain ⟨herr, hcode⟩ := State.recorded_eq_iff.1 hsame
    exact hchange.elim (· herr) (· hcode)
  obtain ⟨⟨hphase, hop, hshort⟩, hrecorded⟩ := (recorded_of_engineStep ht).resolve_left hnew
  refine ⟨hphase, hop, hshort, ?_⟩
  cases herr : s.status.err with
  | true => exact absurd (hrecorded.trans (State.recorded_raise herr _)) hnew
  | false =>
    rw [State.raise_of_no_error herr] at hrecorded
    exact congrArg Prod.snd hrecorded

end Sys2Proof.Machine
end

section
/-! SUPPORT. Host accesses and errors: the busy rule, each write that raises an error, the accesses the bus
rejects, and what keeps a recorded error; the interrupt line; several engines; and the statements
about them (20_memory.md R82 to R84, 60_exceptions.md R291 to R304, R311). -/

namespace Sys2Proof.Machine

/-! ### The busy rule -/

/-- While busy the rule drops the write with E_BUSY (R294). -/
theorem State.whenIdle_of_busy {s : State} (hbusy : s.status.busy = true) (effect : Res State) :
    s.whenIdle effect = .next (s.raise .busy) := by
  rw [whenIdle, if_pos hbusy]

/-- While idle the write has its effect (R294). -/
theorem State.whenIdle_of_idle {s : State} (hidle : s.status.busy = false) (effect : Res State) :
    s.whenIdle effect = effect := by
  rw [whenIdle, hidle, if_neg Bool.false_ne_true]

/-- Each of the four commands starts under the busy rule, and its start records no error (R294). -/
theorem exec_eq_command {i : Instr}
    (hi : i = .matchSig ∨ i = .msglen ∨ i = .decode ∨ i = .decodeS) (s : State) :
    ∃ start : State → State, exec i s = s.command start ∧ (start s).recorded = s.recorded := by
  rcases hi with rfl | rfl | rfl | rfl
  · exact ⟨_, exec_matchSig s, rfl⟩
  · exact ⟨_, exec_msglen s, rfl⟩
  · exact ⟨_, exec_decode s, rfl⟩
  · exact ⟨_, exec_decodeS s, rfl⟩

/-- A command issued while busy only raises E_BUSY (R294). -/
theorem exec_command_of_busy {s : State} {i : Instr} (hbusy : s.status.busy = true)
    (hi : i = .matchSig ∨ i = .msglen ∨ i = .decode ∨ i = .decodeS) :
    exec i s = .next (s.raise .busy) := by
  obtain ⟨start, hexec, -⟩ := exec_eq_command hi s
  rw [hexec, State.command, if_pos hbusy]

/-- A `CMD` write while busy only raises E_BUSY, whatever its OP (R294, R299). -/
theorem writeCmd_of_busy {s : State} (hbusy : s.status.busy = true) (v : Word) :
    writeCmd s v = .next (s.raise .busy) := by
  unfold writeCmd
  split
  · next hd => exact exec_command_of_busy hbusy (decode_cmd_cases hd)
  · exact State.whenIdle_of_busy hbusy _

/-- The registers whose writes the busy rule drops (R294). -/
theorem writeMapped_of_busy {s : State} {r : Reg} (hbusy : s.status.busy = true)
    (hr : r = .cmd ∨ r = .bufLen ∨ r = .orcOff ∨ r = .viewSel) (v : Word) :
    writeMapped s v r = .next (s.raise .busy) := by
  rcases hr with rfl | rfl | rfl | rfl
  · exact writeCmd_of_busy hbusy v
  all_goals exact State.whenIdle_of_busy hbusy _

/-- Writing one of them while busy raises E_BUSY and answers Ok (R294). -/
theorem hostAccess_write_reg_of_busy {s : State} {r : Reg} (hbusy : s.status.busy = true)
    (hr : r = .cmd ∨ r = .bufLen ∨ r = .orcOff ∨ r = .viewSel) (v : Word) :
    hostAccess s (.write .reg r.offset .word v) = .next ((s.raise .busy).respond .ok) := by
  rw [hostAccess_write_reg, writeMapped_of_busy hbusy hr, andThen_next]

/-- An admitted BUF write while busy stores nothing: it raises E_BUSY and answers Ok (R84, R294). -/
theorem hostAccess_write_buf_of_busy {s : State} {off : Nat} {size : Size}
    (hbusy : s.status.busy = true) (hadmit : bufAdmits s off size = true) (v : Word) :
    hostAccess s (.write .buf off size v) = .next ((s.raise .busy).respond .ok) := by
  rw [hostAccess, writeBuf, if_pos hadmit, State.whenIdle_of_busy hbusy, andThen_next]

/-- Settles O20: each of the four starts under the busy rule. -/
theorem busyDropsCommands : Obligations.BusyDropsCommands :=
  fun _ _ hbusy hi => exec_command_of_busy hbusy hi

/-- Settles O46: the four registers and an admitted BUF write are under the busy rule. -/
theorem busyDropsWrites : Obligations.BusyDropsWrites := by
  rintro s v a hbusy (rfl | rfl | rfl | rfl | ⟨off, hcap, rfl⟩ | ⟨off, hword, hcap, rfl⟩)
  · exact hostAccess_write_reg_of_busy (r := .cmd) hbusy (by decide) v
  · exact hostAccess_write_reg_of_busy (r := .bufLen) hbusy (by decide) v
  · exact hostAccess_write_reg_of_busy (r := .orcOff) hbusy (by decide) v
  · exact hostAccess_write_reg_of_busy (r := .viewSel) hbusy (by decide) v
  · exact hostAccess_write_buf_of_busy hbusy (by simp [bufAdmits, hcap]) v
  · exact hostAccess_write_buf_of_busy hbusy (by simp [bufAdmits, hword, hcap]) v

/-! ### Idle writes that raise an error -/

/-- Settles O45: a reserved OP decodes to no command. -/
theorem reservedCommandRecorded : Obligations.ReservedCommandRecorded := by
  intro s v hidle hop
  obtain ⟨-, -, -, -, hreserved⟩ := commandWordDecoding v
  refine (hostAccess_write_reg s .cmd v).trans ?_
  rw [writeMapped, writeCmd, hreserved hop]
  simp only [State.whenIdle_of_idle hidle, andThen_next]
  rfl

/-- Settles O47: BUF_CAP decides between the two effects of an idle write. -/
theorem bufLenWrite : Obligations.BufLenWrite := by
  intro s v hidle
  have hwrite := hostAccess_write_reg s .bufLen v
  rw [writeMapped, writeBufLen, State.whenIdle_of_idle hidle] at hwrite
  refine ⟨fun hle => hwrite.trans ?_, fun hgt => hwrite.trans ?_⟩
  · rw [if_neg (Nat.not_lt.2 hle)]
    rfl
  · rw [if_pos hgt]
    rfl

/-- No valid block, or an index past the chosen view's elements, is no element (R272, R297). -/
theorem Block.hasElement_eq_false {b : Block} {v : Word}
    (h : b.valid = false
      ∨ (v.toNat < 2 ^ 31 ∧ b.words.toNat ≤ v.toNat % 2 ^ 16)
      ∨ (2 ^ 31 ≤ v.toNat ∧ b.bytes.toNat ≤ v.toNat % 2 ^ 16)) : b.hasElement v = false := by
  rcases h with hvalid | ⟨hmode, hpast⟩ | ⟨hmode, hpast⟩
  · rw [hasElement, hvalid, Bool.false_and]
  · rw [← Bool.not_eq_true, hasElement_of_word hmode]
    exact fun ⟨_, hk⟩ => Nat.not_lt.2 hpast hk
  · rw [← Bool.not_eq_true, hasElement_of_byte hmode]
    exact fun ⟨_, hk⟩ => Nat.not_lt.2 hpast hk

/-- Settles O50: the write selects no element. -/
theorem viewBadIndex : Obligations.ViewBadIndex := by
  intro s v hidle hnone
  refine (hostAccess_write_reg s .viewSel v).trans ?_
  rw [writeMapped, writeViewSel_of_no_element hidle (Block.hasElement_eq_false hnone)]
  rfl

/-! ### Accesses the bus rejects -/

/-- A REG access of one byte, or where nothing is mapped, is a bus error (R82). -/
theorem hostAccess_reg_not_admitted {s : State} {off : Nat} {size : Size} {v : Word} {a : Access}
    (ha : a = .read .reg off size ∨ a = .write .reg off size v)
    (h : size = .byte ∨ regAt off = none) : hostAccess s a = .next (s.respond .busError) := by
  rcases ha with rfl | rfl <;> rcases h with rfl | h
  · rfl
  · cases size <;> simp [hostAccess, readReg, h]
  · rfl
  · cases size <;> simp [hostAccess, writeReg, h]

/-- A BUF access outside R83's admission is a bus error. -/
theorem hostAccess_buf_not_admitted {s : State} {off : Nat} {size : Size} {v : Word} {a : Access}
    (ha : a = .read .buf off size ∨ a = .write .buf off size v)
    (h : bufAdmits s off size = false) : hostAccess s a = .next (s.respond .busError) := by
  rcases ha with rfl | rfl
  · simp [hostAccess, readBuf, h]
  · simp [hostAccess, writeBuf, h]

/-- Settles O52: no register stands there, and BUF's admission fails there. -/
theorem nonAdmittedAccess : Obligations.NonAdmittedAccess := by
  rintro s sp off sz v a ha (⟨rfl, hreg⟩ | ⟨rfl, rfl, hcap⟩ | ⟨rfl, rfl, hword⟩)
  · exact hostAccess_reg_not_admitted ha (hreg.imp_right regAt_unmapped)
  · exact hostAccess_buf_not_admitted ha (decide_eq_false (Nat.not_lt.2 hcap))
  · refine hostAccess_buf_not_admitted ha ?_
    rw [bufAdmits, Bool.and_eq_false_iff, decide_eq_false_iff_not, decide_eq_false_iff_not, Nat.not_le]
    exact hword

/-! ### A recorded error stays -/

/-- The busy rule keeps a recorded error when the write's own effect does. -/
theorem State.recorded_whenIdle {s t : State} {effect : Res State} (herr : s.status.err = true)
    (heffect : effect = .next t → t.recorded = s.recorded) (h : s.whenIdle effect = .next t) :
    t.recorded = s.recorded := by
  rcases whenIdle_eq_next h with ⟨-, rfl⟩ | ⟨-, h⟩
  · exact recorded_raise herr .busy
  · exact heffect h

/-- A command keeps a recorded error, accepted or dropped. -/
theorem recorded_of_command {s t : State} {i : Instr} (herr : s.status.err = true)
    (hi : i = .matchSig ∨ i = .msglen ∨ i = .decode ∨ i = .decodeS) (h : exec i s = .next t) :
    t.recorded = s.recorded := by
  obtain ⟨start, hexec, hstart⟩ := exec_eq_command hi s
  rcases State.command_eq_next (hexec.symm.trans h) with ⟨-, rfl⟩ | ⟨-, rfl⟩
  · exact State.recorded_raise herr .busy
  · exact hstart

/-- A `CMD` write keeps a recorded error, a reserved OP included (R292). -/
theorem recorded_of_writeCmd {s t : State} {v : Word} (herr : s.status.err = true)
    (h : writeCmd s v = .next t) : t.recorded = s.recorded := by
  unfold writeCmd at h
  split at h
  · next hd => exact recorded_of_command herr (decode_cmd_cases hd) h
  · refine State.recorded_whenIdle herr (fun heff => ?_) h
    cases heff
    exact State.recorded_raise herr .badCmd

/-- A BUF_LEN write keeps a recorded error (R296). -/
theorem recorded_of_writeBufLen {s t : State} {v : Word} (herr : s.status.err = true)
    (h : writeBufLen s v = .next t) : t.recorded = s.recorded := by
  refine State.recorded_whenIdle herr (fun heff => ?_) h
  split at heff
  · cases heff
    exact State.recorded_raise herr .bufLen
  · cases heff
    rfl

/-- A VIEW_SEL write keeps a recorded error (R297). -/
theorem recorded_of_writeViewSel {s t : State} {v : Word} (herr : s.status.err = true)
    (h : writeViewSel s v = .next t) : t.recorded = s.recorded := by
  refine State.recorded_whenIdle herr (fun heff => ?_) h
  simp only at heff
  split at heff
  · split at heff
    all_goals
      obtain ⟨x, -, hx⟩ := withRead_next heff
      cases hx
      rfl
  · cases heff
    exact State.recorded_raise
      (s := { s with viewSel := v &&& 0x8000FFFF#32, viewData := 0#32 }) herr .view

/-- A STATUS write without bit [2] keeps what is recorded (R301). -/
theorem State.recorded_clearStatus {s : State} {v : Word} (hbit : v.toNat / 4 % 2 = 0) :
    (s.clearStatus v).recorded = s.recorded := by
  have hclear : v.getLsbD 2 = false := by
    rw [getLsbD_eq_decide_div, decide_eq_false_iff_not]
    omega
  simp only [recorded, clearStatus_status, hclear, Bool.not_false, Bool.and_true, Bool.false_eq_true,
    if_false]

/-- A register write keeps a recorded error, but for STATUS with bit [2] (R293, R301). -/
theorem recorded_of_writeMapped {s t : State} {v : Word} {r : Reg} (herr : s.status.err = true)
    (hclear : r = .status → v.toNat / 4 % 2 = 0) (h : writeMapped s v r = .next t) :
    t.recorded = s.recorded := by
  cases r with
  | cmd => exact recorded_of_writeCmd herr h
  | status =>
    cases h
    exact State.recorded_clearStatus (hclear rfl)
  | bufLen => exact recorded_of_writeBufLen herr h
  | orcOff => exact State.recorded_whenIdle herr (fun heff => by cases heff; rfl) h
  | viewSel => exact recorded_of_writeViewSel herr h
  | _ =>
    cases h
    rfl

/-- A REG write keeps a recorded error, but for STATUS with bit [2]. -/
theorem recorded_of_writeReg {s t : State} {off : Nat} {size : Size} {v : Word}
    (herr : s.status.err = true) (hclear : off = 0x04 → size = .word → v.toNat / 4 % 2 = 0)
    (h : writeReg s off size v = .next t) : t.recorded = s.recorded := by
  unfold writeReg at h
  split at h
  · next r hr =>
    obtain ⟨u, hu, hut⟩ := andThen_eq_next h
    cases hut
    refine (recorded_of_writeMapped herr (fun hstatus => hclear ?_ rfl) hu :
      u.recorded = s.recorded)
    rw [← offset_of_regAt hr, hstatus]
    rfl
  · cases h
    rfl

/-- A BUF write keeps a recorded error. -/
theorem recorded_of_writeBuf {s t : State} {off : Nat} {size : Size} {v : Word}
    (herr : s.status.err = true) (h : writeBuf s off size v = .next t) :
    t.recorded = s.recorded := by
  unfold writeBuf at h
  split at h
  · obtain ⟨u, hu, hut⟩ := andThen_eq_next h
    cases hut
    exact (State.recorded_whenIdle herr (fun heff => by cases heff; rfl) hu :
      u.recorded = s.recorded)
  · cases h
    rfl

/-- Every host access keeps a recorded error, but for a STATUS write with bit [2] (R293). -/
theorem recorded_of_hostAccess {s t : State} {a : Access} (herr : s.status.err = true)
    (hclear : ∀ v, a = .write .reg 0x04 .word v → v.toNat / 4 % 2 = 0)
    (h : hostAccess s a = .next t) : t.recorded = s.recorded := by
  cases a with
  | read space off size =>
    rw [readsHaveNoSideEffect s t space off size h]
    rfl
  | write space off size v =>
    cases space with
    | reg => exact recorded_of_writeReg herr (fun hoff hsize => hclear v (by rw [hoff, hsize])) h
    | buf => exact recorded_of_writeBuf herr h

/-- Every engine turn keeps a recorded error (R293). -/
theorem recorded_of_engineStep_of_error {s t : State} (herr : s.status.err = true)
    (h : engineStep s = .next t) : t.recorded = s.recorded := by
  rcases recorded_of_engineStep h with hsame | ⟨-, hraised⟩
  · exact hsame
  · exact hraised.trans (State.recorded_raise herr .orcShort)

/-- Every step keeps a recorded error, but for reset and a STATUS write with bit [2] (R293, R330). -/
theorem recorded_of_step {s t : State} (herr : s.status.err = true) (h : step s = .next t)
    (hreset : s.agenda.head? ≠ some .reset)
    (hclear : ∀ v : Word, s.agenda.head? = some (.access (.write .reg 0x04 .word v)) →
      v.toNat / 4 % 2 = 0) : t.recorded = s.recorded := by
  rcases step_cases s with ⟨-, hs⟩ | ⟨e, rest, hagenda, hs⟩ <;> rw [hs] at h
  · exact recorded_of_engineStep_of_error herr h
  · rw [hagenda, List.head?_cons] at hreset hclear
    cases e with
    | access a =>
      exact recorded_of_hostAccess (s := { s with agenda := rest }) herr
        (fun v ha => hclear v (by rw [ha])) h
    | engine => exact recorded_of_engineStep_of_error (s := { s with agenda := rest }) herr h
    | reset => exact absurd rfl hreset

/-- Settles O42: raise keeps the first code, a step keeps what is recorded, and the STATUS write of R301
clears it. -/
theorem errorsAreSticky : Obligations.ErrorsAreSticky := by
  refine ⟨fun s e => ⟨fun h => State.raise_of_no_error h e, fun h => State.raise_of_error h e⟩,
    fun s t herr h hreset hclear => ?_, fun s v hbit => ?_⟩
  · obtain ⟨hsame, hcode⟩ := State.recorded_eq_iff.1 (recorded_of_step herr h hreset hclear)
    exact ⟨hsame.trans herr, hcode⟩
  · exact ⟨_, statusWriteClears s v, if_pos hbit, if_pos hbit⟩

/-! ### The interrupt line -/

/-- The line is IRQ_EN and one of the two causes (R304). -/
theorem State.irq_iff {s : State} :
    s.irq = true ↔ s.irqEn = true ∧ (s.status.done = true ∨ s.status.err = true) := by
  rw [irq, Bool.and_eq_true, Bool.or_eq_true]

/-- Settles O48: raising an error sets the one cause, completing a command the other. -/
theorem irqFollowsStatus : Obligations.IrqFollowsStatus := fun _ =>
  ⟨State.irq_iff, fun _ hen => State.irq_iff.2 ⟨hen, .inr rfl⟩,
    fun hen => State.irq_iff.2 ⟨hen, .inl rfl⟩⟩

/-! ### Several engines -/

/-- An engine's step that answers put what the engine alone would become in its place (R311). -/
theorem Engines.stepAt_eq_next {m m' : Engines} {e : Nat} (h : m.stepAt e = some (.next m')) :
    ∃ s t, m.engines[e]? = some s ∧ step s = .next t ∧ m' = ⟨m.engines.set e t⟩ := by
  unfold stepAt at h
  split at h
  · cases h
  · next s hs =>
    cases hstep : step s with
    | next t =>
      rw [hstep] at h
      cases h
      exact ⟨s, t, hs, hstep, rfl⟩
    | fault f => simp [hstep] at h
    | refused r => simp [hstep] at h

/-- Settles O60: one place of the list is set, to the engine's own step. -/
theorem enginesShareNothing : Obligations.EnginesShareNothing := by
  intro m m' e h
  obtain ⟨s, t, hs, hstep, rfl⟩ := Engines.stepAt_eq_next h
  obtain ⟨hin, -⟩ := List.getElem?_eq_some_iff.1 hs
  exact ⟨fun k hk => List.getElem?_set_ne hk.symm,
    s, t, hs, hstep, List.getElem?_set_self hin⟩

end Sys2Proof.Machine
end

section
/-! SUPPORT. Reset events and result reads while busy, and the statements about them
(70_reset_and_hazards.md R330, R341). -/

namespace Sys2Proof.Machine

/-- A step with an input waiting takes that input off the list and handles it (R95). -/
theorem step_of_agenda {s : State} {e : Event} {rest : List Event} (h : s.agenda = e :: rest) :
    step s = handle { s with agenda := rest } e := by
  simp only [step, h]

/-- Settles O10: the step handles the reset event, which no phase and no flag of the state delays. -/
theorem resetEventRestoresAll : Obligations.ResetEventRestoresAll := by
  intro s rest hagenda
  calc step s
      = handle { s with agenda := rest } .reset := step_of_agenda hagenda
    _ = .next (State.afterReset { s with agenda := rest }) := rfl

/-- The offsets R341 lists are those of result registers: every other register lies elsewhere. -/
theorem isResult_of_offset {r : Reg}
    (h : r.offset ∈ [0x14, 0x18, 0x1C, 0x20, 0x24, 0x28, 0x2C, 0x30, 0x34, 0x38, 0x40]
      ∨ 0x80 ≤ r.offset) : r.isResult = true := by
  cases r with
  | cmd | status | ctrl | bufLen | orcOff | viewSel | id => simp [Reg.offset] at h
  | _ => rfl

/-- While busy a word read of a result register answers a free value and counts it (R341, log 5). -/
theorem hostAccess_read_result_of_busy {s : State} {r : Reg} (hbusy : s.status.busy = true)
    (hresult : r.isResult = true) :
    hostAccess s (.read .reg r.offset .word)
      = .next { s with response := some (.data (Config.freeRead s.draws)), draws := s.draws + 1 } := by
  simp [hostAccess, readReg, hbusy, hresult, State.respond]

/-- Settles O59: each offset is mapped, to a result register. -/
theorem busyResultReadCompletes : Obligations.BusyResultReadCompletes := by
  intro s off hbusy hoff
  obtain ⟨hword, hrange⟩ : off % 4 = 0 ∧ (off < 0x48 ∨ 0x80 ≤ off ∧ off < 0x100) := by
    simp only [List.mem_cons, List.not_mem_nil, or_false] at hoff
    omega
  obtain ⟨r, hr⟩ := regAt_mapped hword hrange
  obtain rfl := offset_of_regAt hr
  have hresult : r.isResult = true := isResult_of_offset (hoff.imp_right And.left)
  exact ⟨Config.freeRead s.draws, hostAccess_read_result_of_busy hbusy hresult⟩

end Sys2Proof.Machine
end
